-- ==== Sys2Proof/Word.lean ====
section
/-!
DEFINITION. The words of the machine (spec/00_scope.md R10, R11: unsigned values of a stated width,
bit 0 the least significant).
-/

namespace Sys2Proof

/-- An 8-bit value: a general register, a timer, a byte of memory, the immediate `kk`. -/
abbrev Byte := BitVec 8

/-- A 16-bit value: `I`, `PC`, `OPCODE`, a stack entry, an instruction word. -/
abbrev Word := BitVec 16

/-- The 12-bit immediate `nnn`, a byte address (R82). -/
abbrev Addr12 := BitVec 12

/-- The index of one of the sixteen registers V0 to VF (R21). -/
abbrev Reg := Fin 16

end Sys2Proof
end

