-- ==== Sys2Proof/WellFormed.lean ====
section
/-!
DEFINITION. Which 16-bit words are instructions, by the mask and match columns of
spec/30_encoding.md R86: a check of its own, written from the table and not from the decoder.
A term of `Instr` needs no check: its operand types hold exactly the values the fields hold
(DEDUCED, log entry 3), so the ill-formed things are words, and the checks below refuse them family by
family.
-/

namespace Sys2Proof

/-- A row of the opcode map: the word `op` selects it exactly when `op & mask = pattern` (R85). -/
structure OpRow where
  mask : Word
  pattern : Word
  deriving DecidableEq, Repr

/-- The word selects the row (R85). -/
def OpRow.selects (r : OpRow) (w : Word) : Bool := w &&& r.mask == r.pattern

/-- Rows 1 to 7 of R86: `00E0` to `5xy0`. -/
def opRows0to5 : List OpRow :=
  [⟨0xFFFF, 0x00E0⟩, ⟨0xFFFF, 0x00EE⟩, ⟨0xF000, 0x1000⟩, ⟨0xF000, 0x2000⟩,
   ⟨0xF000, 0x3000⟩, ⟨0xF000, 0x4000⟩, ⟨0xF00F, 0x5000⟩]

/-- Rows 8 to 18 of R86: `6xkk` to `8xyE`. -/
def opRows6to8 : List OpRow :=
  [⟨0xF000, 0x6000⟩, ⟨0xF000, 0x7000⟩, ⟨0xF00F, 0x8000⟩, ⟨0xF00F, 0x8001⟩,
   ⟨0xF00F, 0x8002⟩, ⟨0xF00F, 0x8003⟩, ⟨0xF00F, 0x8004⟩, ⟨0xF00F, 0x8005⟩,
   ⟨0xF00F, 0x8006⟩, ⟨0xF00F, 0x8007⟩, ⟨0xF00F, 0x800E⟩]

/-- Rows 19 to 25 of R86: `9xy0` to `ExA1`. -/
def opRows9toE : List OpRow :=
  [⟨0xF00F, 0x9000⟩, ⟨0xF000, 0xA000⟩, ⟨0xF000, 0xB000⟩, ⟨0xF000, 0xC000⟩,
   ⟨0xF000, 0xD000⟩, ⟨0xF0FF, 0xE09E⟩, ⟨0xF0FF, 0xE0A1⟩]

/-- Rows 26 to 34 of R86: `Fx07` to `Fx65`. -/
def opRowsF : List OpRow :=
  [⟨0xF0FF, 0xF007⟩, ⟨0xF0FF, 0xF00A⟩, ⟨0xF0FF, 0xF015⟩, ⟨0xF0FF, 0xF018⟩,
   ⟨0xF0FF, 0xF01E⟩, ⟨0xF0FF, 0xF029⟩, ⟨0xF0FF, 0xF033⟩, ⟨0xF0FF, 0xF055⟩,
   ⟨0xF0FF, 0xF065⟩]

/-- The complete opcode map: the 34 rows of R86. -/
def opTable : List OpRow := opRows0to5 ++ opRows6to8 ++ opRows9toE ++ opRowsF

/-- The word selects some row of the opcode map; a word that selects none is an unrecognised
opcode (R85, R87). -/
def wellFormedWord (w : Word) : Bool := opTable.any (·.selects w)

end Sys2Proof
end

