-- ==== Sys2Proof/Decode.lean ====
section
/-!
DEFINITION. Decoding (spec/30_encoding.md R80 to R89, spec/40_fetch_decode_dispatch.md R102, R103):
the fields of a word, the decoder, total on any bytes and rejecting by name, and the encoder.
-/

namespace Sys2Proof

/-- Why bytes are no instruction. -/
inductive DecodeError where
  /-- The word matches no pattern of R86 (R87): the diagnostic `UNRECOGNISED(op)` of R109.
  Not a fault: the cycle is a no-op (R104). -/
  | unrecognised (op : Word)
  /-- Fewer than the two bytes an instruction has (R80) were given to the decoder. A fetch always
  has two. -/
  | tooShort
  deriving DecidableEq, Repr

/-! ## The fields of the word (R81) -/

/-- `t = op[15:12]`, the primary family. -/
def fieldT (w : Word) : Fin 16 := (w.extractLsb' 12 4).toFin

/-- `x = op[11:8]`. -/
def fieldX (w : Word) : Reg := (w.extractLsb' 8 4).toFin

/-- `y = op[7:4]`. -/
def fieldY (w : Word) : Reg := (w.extractLsb' 4 4).toFin

/-- `n = op[3:0]`. -/
def fieldN (w : Word) : Fin 16 := (w.extractLsb' 0 4).toFin

/-- `kk = op[7:0]`. -/
def fieldKK (w : Word) : Byte := w.extractLsb' 0 8

/-- `nnn = op[11:0]`. -/
def fieldNNN (w : Word) : Addr12 := w.extractLsb' 0 12

/-- Two bytes as a word, the byte at the lower address first: `hi:lo` (R65). -/
def joinBytes (hi lo : Byte) : Word := hi ++ lo

/-- The byte of a word at the lower address, `OPCODE[15:8]` (R65). -/
def highByte (w : Word) : Byte := w.extractLsb' 8 8

/-- The byte of a word at the higher address, `OPCODE[7:0]` (R65). -/
def lowByte (w : Word) : Byte := w.extractLsb' 0 8

/-! ## The decoder -/

/-- Family 0: all sixteen bits are compared (R84, R88). -/
def decodeFamily0 (w : Word) : Except DecodeError Instr :=
  if w = 0x00E0 then .ok .cls
  else if w = 0x00EE then .ok .ret
  else .error (.unrecognised w)

/-- Family 8: the bottom nibble selects the operation (R86 rows 10 to 18). -/
def decodeFamily8 (w : Word) : Except DecodeError Instr :=
  match (fieldN w).val with
  | 0x0 => .ok (.ldReg (fieldX w) (fieldY w))
  | 0x1 => .ok (.orReg (fieldX w) (fieldY w))
  | 0x2 => .ok (.andReg (fieldX w) (fieldY w))
  | 0x3 => .ok (.xorReg (fieldX w) (fieldY w))
  | 0x4 => .ok (.addReg (fieldX w) (fieldY w))
  | 0x5 => .ok (.subReg (fieldX w) (fieldY w))
  | 0x6 => .ok (.shr (fieldX w) (fieldY w))
  | 0x7 => .ok (.subn (fieldX w) (fieldY w))
  | 0xE => .ok (.shl (fieldX w) (fieldY w))
  | _ => .error (.unrecognised w)

/-- Family E: the bottom byte selects (R86 rows 24, 25). -/
def decodeFamilyE (w : Word) : Except DecodeError Instr :=
  if fieldKK w = 0x9E then .ok (.skp (fieldX w))
  else if fieldKK w = 0xA1 then .ok (.sknp (fieldX w))
  else .error (.unrecognised w)

/-- Family F: the bottom byte selects (R86 rows 26 to 34). -/
def decodeFamilyF (w : Word) : Except DecodeError Instr :=
  if fieldKK w = 0x07 then .ok (.ldVxDT (fieldX w))
  else if fieldKK w = 0x0A then .ok (.ldVxK (fieldX w))
  else if fieldKK w = 0x15 then .ok (.ldDT (fieldX w))
  else if fieldKK w = 0x18 then .ok (.ldST (fieldX w))
  else if fieldKK w = 0x1E then .ok (.addI (fieldX w))
  else if fieldKK w = 0x29 then .ok (.ldF (fieldX w))
  else if fieldKK w = 0x33 then .ok (.ldB (fieldX w))
  else if fieldKK w = 0x55 then .ok (.stRegs (fieldX w))
  else if fieldKK w = 0x65 then .ok (.ldRegs (fieldX w))
  else .error (.unrecognised w)

/-- The instruction of a word, or its rejection by name: the `case` of R107. Decode is total and
has no side effect (R85, R102). -/
def decodeWord (w : Word) : Except DecodeError Instr :=
  match (fieldT w).val with
  | 0x0 => decodeFamily0 w
  | 0x1 => .ok (.jp (fieldNNN w))
  | 0x2 => .ok (.call (fieldNNN w))
  | 0x3 => .ok (.seByte (fieldX w) (fieldKK w))
  | 0x4 => .ok (.sneByte (fieldX w) (fieldKK w))
  | 0x5 => if fieldN w = 0 then .ok (.seReg (fieldX w) (fieldY w)) else .error (.unrecognised w)
  | 0x6 => .ok (.ldByte (fieldX w) (fieldKK w))
  | 0x7 => .ok (.addByte (fieldX w) (fieldKK w))
  | 0x8 => decodeFamily8 w
  | 0x9 => if fieldN w = 0 then .ok (.sneReg (fieldX w) (fieldY w)) else .error (.unrecognised w)
  | 0xA => .ok (.ldI (fieldNNN w))
  | 0xB => .ok (.jpV0 (fieldNNN w))
  | 0xC => .ok (.rnd (fieldX w) (fieldKK w))
  | 0xD => .ok (.drw (fieldX w) (fieldY w) (fieldN w))
  | 0xE => decodeFamilyE w
  | _ => decodeFamilyF w

/-- The instruction at the front of a byte sequence, lower address first, with the bytes after it. -/
def decode : List Byte → Except DecodeError (Instr × List Byte)
  | hi :: lo :: rest =>
    match decodeWord (joinBytes hi lo) with
    | .ok i => .ok (i, rest)
    | .error e => .error e
  | _ => .error .tooShort

/-! ## The encoder (formats of R83, fixed digits of R86) -/

/-- Format NNN: `t[4] nnn[12]`. -/
def wordNNN (t : BitVec 4) (nnn : Addr12) : Word := t ++ nnn

/-- Format XKK: `t[4] x[4] kk[8]`; format XSS with `kk` the fixed bottom byte. -/
def wordXKK (t : BitVec 4) (x : Reg) (kk : Byte) : Word := t ++ (BitVec.ofFin x : BitVec 4) ++ kk

/-- Format XYN: `t[4] x[4] y[4] n[4]`; format XYS with `n` the fixed bottom nibble. -/
def wordXYN (t : BitVec 4) (x y : Reg) (n : Fin 16) : Word :=
  t ++ (BitVec.ofFin x : BitVec 4) ++ (BitVec.ofFin y : BitVec 4) ++ (BitVec.ofFin n : BitVec 4)

/-- The word of an instruction. -/
def encode : Instr → Word
  | .cls => 0x00E0
  | .ret => 0x00EE
  | .jp nnn => wordNNN 0x1 nnn
  | .call nnn => wordNNN 0x2 nnn
  | .seByte x kk => wordXKK 0x3 x kk
  | .sneByte x kk => wordXKK 0x4 x kk
  | .seReg x y => wordXYN 0x5 x y 0x0
  | .ldByte x kk => wordXKK 0x6 x kk
  | .addByte x kk => wordXKK 0x7 x kk
  | .ldReg x y => wordXYN 0x8 x y 0x0
  | .orReg x y => wordXYN 0x8 x y 0x1
  | .andReg x y => wordXYN 0x8 x y 0x2
  | .xorReg x y => wordXYN 0x8 x y 0x3
  | .addReg x y => wordXYN 0x8 x y 0x4
  | .subReg x y => wordXYN 0x8 x y 0x5
  | .shr x y => wordXYN 0x8 x y 0x6
  | .subn x y => wordXYN 0x8 x y 0x7
  | .shl x y => wordXYN 0x8 x y 0xE
  | .sneReg x y => wordXYN 0x9 x y 0x0
  | .ldI nnn => wordNNN 0xA nnn
  | .jpV0 nnn => wordNNN 0xB nnn
  | .rnd x kk => wordXKK 0xC x kk
  | .drw x y n => wordXYN 0xD x y n
  | .skp x => wordXKK 0xE x 0x9E
  | .sknp x => wordXKK 0xE x 0xA1
  | .ldVxDT x => wordXKK 0xF x 0x07
  | .ldVxK x => wordXKK 0xF x 0x0A
  | .ldDT x => wordXKK 0xF x 0x15
  | .ldST x => wordXKK 0xF x 0x18
  | .addI x => wordXKK 0xF x 0x1E
  | .ldF x => wordXKK 0xF x 0x29
  | .ldB x => wordXKK 0xF x 0x33
  | .stRegs x => wordXKK 0xF x 0x55
  | .ldRegs x => wordXKK 0xF x 0x65

/-! ## The opcode table's numbering -/

/-- The instruction word a row of spec/opcode_table.json gives: bit 0 is the least significant bit
of the one 16-bit word; bits above `nbits` are 0. -/
def tableWord (nbits w : Nat) : Word := BitVec.ofNat 16 (w % 2 ^ nbits)

/-- What the decoder reads from an instruction whose bits are `w`, laid out as memory holds it:
the high byte at the lower address. -/
def decodeTableWord (nbits w : Nat) : Option Instr :=
  match decode [highByte (tableWord nbits w), lowByte (tableWord nbits w)] with
  | .ok (i, _) => some i
  | .error _ => none

end Sys2Proof
end

