-- ==== Sys2Proof/Config.lean ====
section
/-!
DEFINITION. What is fixed for the machine (spec/00_scope.md R7, R8) and the one value the spec
leaves free, the random byte (spec/10_state.md R32).
-/

namespace Sys2Proof

/-- `MEM_SIZE` (R7): the size of the one memory in bytes. -/
abbrev Config.memSize : Nat := 4096

/-- `FB_W` (R8, decision D2): the columns of the framebuffer. -/
abbrev Config.fbW : Nat := 64

/-- `FB_H` (R8, decision D2): the rows of the framebuffer. -/
abbrev Config.fbH : Nat := 32

/-- `STACK_DEPTH` (R7): the entries of the call stack. -/
abbrev Config.stackDepth : Nat := 16

/-- FREE VALUE (DESIGN CHOICE, log entry 1): `RandByte()`, the byte a random source gives at its k-th
draw; the first argument names the source, since each core owns its own (R212; log entry 22). The
spec states no law for it ("under no law", R32), so it has no body: nothing can be proved of its
value, nor of two sources that they agree or differ. -/
opaque Config.randByte : Nat → Nat → Byte

end Sys2Proof
end

