-- ==== Sys2Proof/Machine/State.lean ====
section
/-!
DEFINITION. The state of the core (spec/10_state.md R20 to R37), as plain data, its reset value
(R40), and the reasons a step can stop.
-/

namespace Sys2Proof.Machine

/-- The two conditions the machine calls an error (spec/60_exceptions.md R193). They are the values
the register `FAULT` latches, and the reason a cycle stops once it is latched (R105). -/
inductive Fault where
  /-- Raised by `2nnn` (CALL), and only by it, when `SP` = 16 (R190). The raising cycle is a next
  state with `FAULT` set (R192); every later cycle stops with this reason at the fault gate (R105).
  Safe: the machine itself is frozen there. -/
  | stackOverflow
  /-- Raised by `00EE` (RET), and only by it, when `SP` = 0 (R191). The raising cycle is a next
  state with `FAULT` set (R192); every later cycle stops with this reason at the fault gate (R105).
  Safe: the machine itself is frozen there. -/
  | stackUnderflow
  deriving DecidableEq, Repr

/-- What the model gives no meaning to. -/
inductive Refusal where
  /-- Raised by `exec` for an instruction that has no meaning yet. Safe: it stops. No arm of `exec`
  raises it: every instruction has its meaning. -/
  | notModelled (mnemonic : String)
  /-- Raised by the host operation `LoadROM` (never by an instruction) once a cycle has begun since
  the last reset: R201 and decision D21 give such a load no meaning. Safe: it stops. -/
  | loadAfterFirstCycle
  deriving DecidableEq, Repr

/-- Memory: the (address, byte) pairs that differ from the reset contents, addresses strictly
rising (see `Memory.wf` in Machine/Memory.lean). -/
abbrev Memory := List Host.Cell

/-- The framebuffer: `FB[y][x]`, 32 rows of 64 pixels, stored row-major, 1 as true (R36). -/
abbrev Framebuffer := Vector (Vector Bool Config.fbW) Config.fbH

/-- The complete state of R20. The last two fields are the model's own (DESIGN CHOICE, log entries 2
and 22). -/
structure State where
  /-- `MEM`, 4096 bytes (R35, R60). -/
  mem : Memory
  /-- `V[0]` to `V[15]` (R21, R22). -/
  v : Vector Byte 16
  /-- `I` (R23). -/
  i : Word
  /-- `PC` (R24). -/
  pc : Word
  /-- `STACK[0]` to `STACK[15]` (R26). -/
  stack : Vector Word Config.stackDepth
  /-- `SP`, 0 to 16: the return addresses held and the index of the next free entry (R27, C1). -/
  sp : Fin 17
  /-- `DT`, the delay timer (R28). -/
  dt : Byte
  /-- `ST`, the sound timer (R29). -/
  st : Byte
  /-- `FB` (R36). -/
  fb : Framebuffer
  /-- `KEY[0]` to `KEY[15]`, true when pressed (R37). -/
  key : Vector Bool 16
  /-- `OPCODE`, the word of the latest fetch (R30). -/
  opcode : Word
  /-- `WAIT`, the awaiting-input flag (R31). -/
  wait : Bool
  /-- `FAULT`; `none` is `NONE` (R33). -/
  fault : Option Fault
  /-- The model's own: how many random bytes have been drawn (DESIGN CHOICE, log entry 2). No
  statement rests on its value. -/
  draws : Nat
  /-- The model's own: the name of the random source this core owns (R212; DESIGN CHOICE, log entry
  22). No statement rests on its value. -/
  source : Nat
  deriving DecidableEq, Repr

/-- The machine right after reset: the table of R40. `mem` lists nothing, so every address reads
as its reset content, the font included. Of the random source R222 leaves everything open: this is
the core that owns source 0 (DESIGN CHOICE, log entry 22). -/
def State.reset : State where
  mem := []
  v := Vector.replicate 16 0
  i := 0
  pc := 0x200
  stack := Vector.replicate 16 0
  sp := 0
  dt := 0
  st := 0
  fb := Vector.replicate 32 (Vector.replicate 64 false)
  key := Vector.replicate 16 false
  opcode := 0
  wait := false
  fault := none
  draws := 0
  source := 0

/-- A core as constructed (R220), owning the random source of that name: two cores, or two runs, may
draw different bytes (R222), and cores side by side own a source each (R212; DESIGN CHOICE, log entry
22). -/
def State.construct (source : Nat) : State := { State.reset with source := source }

end Sys2Proof.Machine
end

