-- ==== Sys2Proof/Machine/Memory.lean ====
section
/-!
DEFINITION. The one memory (spec/20_memory.md R60 to R68): its reset contents with the font
(spec/10_state.md R34, R35), reading and writing one byte, and its canonical form.
-/

namespace Sys2Proof.Machine

/-- `FONT_BASE` (spec/00_scope.md R8, decision D1; UNVERIFIED, log entry 6). -/
def fontBase : Nat := 0x050

/-- `FONT_TABLE`, glyphs 0 to 7 (R34, decision D3; UNVERIFIED, log entry 6). -/
def fontGlyphs0to7 : List Byte :=
  [0xF0, 0x90, 0x90, 0x90, 0xF0,
   0x20, 0x60, 0x20, 0x20, 0x70,
   0xF0, 0x10, 0xF0, 0x80, 0xF0,
   0xF0, 0x10, 0xF0, 0x10, 0xF0,
   0x90, 0x90, 0xF0, 0x10, 0x10,
   0xF0, 0x80, 0xF0, 0x10, 0xF0,
   0xF0, 0x80, 0xF0, 0x90, 0xF0,
   0xF0, 0x10, 0x20, 0x40, 0x40]

/-- `FONT_TABLE`, glyphs 8 to F (R34, decision D3; UNVERIFIED, log entry 6). -/
def fontGlyphs8toF : List Byte :=
  [0xF0, 0x90, 0xF0, 0x90, 0xF0,
   0xF0, 0x90, 0xF0, 0x10, 0xF0,
   0xF0, 0x90, 0xF0, 0x90, 0x90,
   0xE0, 0x90, 0xE0, 0x90, 0xE0,
   0xF0, 0x80, 0x80, 0x80, 0xF0,
   0xE0, 0x90, 0x90, 0x90, 0xE0,
   0xF0, 0x80, 0xF0, 0x80, 0xF0,
   0xF0, 0x80, 0xF0, 0x80, 0x80]

/-- `FONT_TABLE`: sixteen glyphs of five bytes, top row first (R34). -/
def fontTable : List Byte := fontGlyphs0to7 ++ fontGlyphs8toF

/-- What an unlisted address reads as: the reset contents of `MEM`, the font at `FONT_BASE` and 0
in every other byte (R35, R40). -/
def resetByte (a : Nat) : Byte :=
  if fontBase ≤ a then fontTable.getD (a - fontBase) 0 else 0

/-- The byte at an address below 4096. -/
def Memory.read : Memory → Nat → Byte
  | [], a => resetByte a
  | (b, w) :: m, a => if a = b then w else Memory.read m a

/-- The memory with no entry for the address. -/
def Memory.erase (m : Memory) (a : Nat) : Memory := m.filter (fun c => c.1 != a)

/-- The memory with an entry put where the rising order of addresses has it. -/
def Memory.insert : Memory → Nat → Byte → Memory
  | [], a, u => [(a, u)]
  | (b, w) :: m, a, u => if a < b then (a, u) :: (b, w) :: m else (b, w) :: Memory.insert m a u

/-- Store one byte at an address below 4096, keeping the canonical form: writing what the address
reads as unlisted leaves no entry. -/
def Memory.write (m : Memory) (a : Nat) (u : Byte) : Memory :=
  if u = resetByte a then m.erase a else Memory.insert (m.erase a) a u

/-- The canonical form: addresses strictly rising, inside the 4096-byte space, and no entry equal
to what its address reads as unlisted. -/
abbrev Memory.wf (m : Memory) : Prop :=
  m.Pairwise (fun c d => c.1 < d.1) ∧ ∀ c ∈ m, c.1 < Config.memSize ∧ c.2 ≠ resetByte c.1

/-- `ADDR_MASK`: every address is masked to 0x0FFF before it indexes `MEM` (R61). -/
def maskAddr (a : Word) : Nat := (a &&& 0x0FFF).toNat

end Sys2Proof.Machine
end

