-- ==== Sys2Proof/Machine/Operands.lean ====
section
/-!
DEFINITION. The operand forms (spec/30_encoding.md R82, spec/45_index_memory.md R172, R173, R176,
spec/41_display.md R121, spec/43_skip.md R147). Every operand is unsigned; none is sign-extended,
scaled or shifted.
-/

namespace Sys2Proof.Machine

/-- VF, the flag register: `V[0xF]` (R21). -/
abbrev vF : Reg := 15

/-- A 12-bit address immediate as the 16-bit value written to `PC` or `I`: upper bits zero (R82). -/
def zextAddr (nnn : Addr12) : Word := nnn.setWidth 16

/-- A register's value as a 16-bit value: `zext_16` (R10). -/
def zextByte (b : Byte) : Word := b.setWidth 16

/-- The effective address `I + k` before it is masked (R176). -/
def indexed (i : Word) (k : Nat) : Word := i + BitVec.ofNat 16 k

/-- The key a register selects: the low four bits of its value (R147, decision D13; UNVERIFIED, log entry 13). -/
def keyIndex (b : Byte) : Fin 16 := (b.extractLsb' 0 4).toFin

/-- The address of a digit's glyph: `FONT_BASE + 5 * V[x]`, the whole byte used (R172, decision
D23; UNVERIFIED, log entry 17). -/
def glyphAddr (base : Nat) (digit : Byte) : Word := BitVec.ofNat 16 base + 5 * zextByte digit

/-- The hundreds digit (R173). -/
def bcdHundreds (b : Byte) : Byte := BitVec.ofNat 8 (b.toNat / 100)

/-- The tens digit (R173). -/
def bcdTens (b : Byte) : Byte := BitVec.ofNat 8 (b.toNat / 10 % 10)

/-- The ones digit (R173). -/
def bcdOnes (b : Byte) : Byte := BitVec.ofNat 8 (b.toNat % 10)

/-- A column of the framebuffer, wrapped: `(x0 + col) mod FB_W` (R121). -/
def wrapX (a : Nat) : Fin Config.fbW := Fin.ofNat Config.fbW a

/-- A row of the framebuffer, wrapped: `(y0 + row) mod FB_H` (R121). -/
def wrapY (a : Nat) : Fin Config.fbH := Fin.ofNat Config.fbH a

/-- The sprite bit of a column: `b[7 - col]`, bit 7 the leftmost pixel (R121, decision D10; UNVERIFIED, log
entry 12). -/
def spriteBit (b : Byte) (col : Nat) : Bool := b.getLsbD (7 - col)

/-- The register an index 0 to 15 of a block transfer names (R174, R175). -/
def blockReg (k : Nat) : Reg := Fin.ofNat 16 k

end Sys2Proof.Machine
end

