-- ==== Sys2Proof/Machine/Ops.lean ====
section
/-!
DEFINITION. The named operations over the state: the primitives of spec/00_scope.md R12, fetch
(spec/40_fetch_decode_dispatch.md R101), the fault gate (R105), raising a fault
(spec/60_exceptions.md R192) and the reset that alone clears it (R200).
-/

namespace Sys2Proof.Machine

/-! ## Registers -/

/-- `V[r]` (R12). -/
def State.readV (s : State) (r : Reg) : Byte := s.v[r.val]

/-- `V[r] <- b` (R12). No register is hardwired (R21). -/
def State.writeV (s : State) (r : Reg) (b : Byte) : State := { s with v := s.v.set r.val b }

/-- `I <- a` (R23). -/
def State.setI (s : State) (a : Word) : State := { s with i := a }

/-- `PC <- a`, a control transfer (R12). -/
def State.setPc (s : State) (a : Word) : State := { s with pc := a }

/-- `DT <- b` (R28). -/
def State.setDt (s : State) (b : Byte) : State := { s with dt := b }

/-- `ST <- b` (R29). -/
def State.setSt (s : State) (b : Byte) : State := { s with st := b }

/-- `WAIT <- b` (R31). -/
def State.setWait (s : State) (b : Bool) : State := { s with wait := b }

/-- `OPCODE <- w` (R30). -/
def State.setOpcode (s : State) (w : Word) : State := { s with opcode := w }

/-- `FB <- f` (R36). -/
def State.setFb (s : State) (f : Framebuffer) : State := { s with fb := f }

/-- `KEY[k] <- b`, the keypad write interface's effect (R37, R204). -/
def State.setKey (s : State) (k : Fin 16) (b : Bool) : State := { s with key := s.key.set k.val b }

/-- `KEY[k]` (R12). -/
def State.keyDown (s : State) (k : Fin 16) : Bool := s.key[k.val]

/-- `STACK[k]` (R12). -/
def State.stackAt (s : State) (k : Fin 16) : Word := s.stack[k.val]

/-- `STACK[k] <- a; SP <- k + 1`, the push of a call at `SP` = k below 16 (R132). -/
def State.push (s : State) (k : Fin 16) (a : Word) : State :=
  { s with stack := s.stack.set k.val a, sp := k.succ }

/-- `SP <- k`, the pop of a return (R130); the popped entry is not cleared (R26). -/
def State.pop (s : State) (k : Fin 16) : State := { s with sp := k.castSucc }

/-- The next byte of this core's random source: the free value of this draw (R32, R162; DESIGN
CHOICE, log entry 1). -/
def State.randByte (s : State) : Byte := Config.randByte s.source s.draws

/-- One byte of the random source is consumed (R162). -/
def State.draw (s : State) : State := { s with draws := s.draws + 1 }

/-! ## Memory -/

/-- `MemRead(a, 1)`: the byte `MEM[a & 0x0FFF]` (R12, R61). -/
def State.memRead (s : State) (a : Word) : Byte := s.mem.read (maskAddr a)

/-- `MemWrite(a, 1, b)`: `MEM[a & 0x0FFF] <- b` (R12, R61). -/
def State.memWrite (s : State) (a : Word) (b : Byte) : State :=
  { s with mem := s.mem.write (maskAddr a) b }

/-- The bytes of a list at consecutive addresses from `a`, each address masked (R61, R176). -/
def State.memWriteList (s : State) (a : Word) : List Byte → State
  | [] => s
  | b :: bs => State.memWriteList (s.memWrite a b) (a + 1) bs

/-! ## Fetch -/

/-- The word at `PC`: two byte reads, each address masked by itself, combined big-endian (R65,
R101). -/
def State.wordAtPc (s : State) : Word := joinBytes (s.memRead s.pc) (s.memRead (s.pc + 1))

/-- Fetch (R101): `OPCODE` takes the word at `PC`, `PC` advances by 2 modulo 65536 before dispatch,
`WAIT` is cleared (R106). It raises nothing. -/
def fetch (s : State) : State := ((s.setOpcode s.wordAtPc).setPc (s.pc + 2)).setWait false

/-- `Skip()` (R110): `PC` advances by 2 more; the skipped word is not looked at. -/
def State.skip (s : State) : State := s.setPc (s.pc + 2)

/-- `if c: Skip()`, the one shape of the six conditional skips (R140). -/
def State.skipIf (s : State) (c : Bool) : State := if c then s.skip else s

/-- A cycle whose word matches no pattern: no handler runs, and the whole effect is fetch's (R104). -/
def execUnrecognised (s : State) : Host.Outcome State Fault Refusal := .next s

/-! ## Faults -/

/-- `raise f` in a handler (R192): `FAULT` is latched, what fetch did in this cycle stands, and
nothing else changes. There is no handler address and no saved state in the machine (R196). -/
def State.raise (s : State) (f : Fault) : State := { s with fault := some f }

/-- The fault gate (R105): the fault that stops this cycle before it fetches, if one is latched. -/
def faultGate (s : State) : Option Fault := s.fault

/-- `Reset()` on a live core (R200, R220), the only way out of a fault (R197): every piece of
state takes its value of R40; the core's random source goes on with bytes not drawn yet, since its
new seed is unspecified (R222; DESIGN CHOICE, log entry 2). -/
def State.hostReset (s : State) : State := { State.construct s.source with draws := s.draws }

/-- The code R33 suggests for the register `FAULT` (U26); no instruction can read it. -/
def faultCode : Option Fault → Nat
  | none => 0
  | some .stackOverflow => 1
  | some .stackUnderflow => 2

/-! ## Placing an instruction -/

/-- `s` with the instruction word stored where the next fetch reads it, high byte first, and the
fault gate open. -/
def State.placeWord (s : State) (w : Word) : State :=
  { (s.memWrite s.pc (highByte w)).memWrite (s.pc + 1) (lowByte w) with fault := none }

end Sys2Proof.Machine
end

