-- ==== Sys2Proof/Machine/ControlFlow.lean ====
section
/-!
DEFINITION. The control-flow instructions (spec/42_control_flow.md): `00EE`, `1nnn`, `2nnn`,
`Bnnn`. On entry `PC` is already the address after the instruction.
-/

namespace Sys2Proof.Machine

/-- `00EE` RET (R130): with `SP` = 0 it raises `STACK_UNDERFLOW` (R191); else `SP` goes down by
one and `PC` takes the entry there, all 16 bits. -/
def execRet (s : State) : Host.Outcome State Fault Refusal :=
  if h : s.sp.val = 0 then .next (s.raise .stackUnderflow)
  else
    let k : Fin 16 := ⟨s.sp.val - 1, by omega⟩
    .next ((s.pop k).setPc (s.stackAt k))

/-- `1nnn` JP nnn (R131). -/
def execJp (nnn : Addr12) (s : State) : Host.Outcome State Fault Refusal :=
  .next (s.setPc (zextAddr nnn))

/-- `2nnn` CALL nnn (R132): with `SP` = 16 it raises `STACK_OVERFLOW` (R190); else it pushes the
advanced `PC`, all 16 bits, and jumps. R225 says of a core with no ROM that walks its zero bytes and
its font that "None of this faults", yet the font holds a call (the word 2070 at 0x058) that such a
core repeats until the stack is full: the model follows R132 and R190 (DESIGN CHOICE, log entry 21). -/
def execCall (nnn : Addr12) (s : State) : Host.Outcome State Fault Refusal :=
  if h : s.sp.val = 16 then .next (s.raise .stackOverflow)
  else .next ((s.push ⟨s.sp.val, by omega⟩ s.pc).setPc (zextAddr nnn))

/-- `Bnnn` JP V0, nnn (R133): the 16-bit sum is stored unreduced (decision D6; UNVERIFIED, log entry 7). -/
def execJpV0 (nnn : Addr12) (s : State) : Host.Outcome State Fault Refusal :=
  .next (s.setPc (zextAddr nnn + zextByte (s.readV 0)))

end Sys2Proof.Machine
end

