-- ==== Sys2Proof/Machine/Flags.lean ====
section
/-!
DEFINITION. The flag values VF receives (spec/10_state.md R22, spec/44_register_alu.md R157 to
R161): always 0 or 1.
-/

namespace Sys2Proof.Machine

/-- A condition as a flag byte: 1 if it holds, else 0. -/
def flagByte (b : Bool) : Byte := if b then 1 else 0

/-- Carry out of bit 7 (R157): 1 if the 9-bit sum is above 255. -/
def carryFlag (sum : Nat) : Byte := flagByte (decide (sum > 255))

/-- No borrow (R158, R160): 1 if the minuend is at least the subtrahend, unsigned. -/
def noBorrowFlag (minuend subtrahend : Byte) : Byte := flagByte (decide (subtrahend.toNat ≤ minuend.toNat))

/-- The bit shifted out at the bottom (R159): bit 0 before the shift. -/
def shiftedOutLow (b : Byte) : Byte := flagByte (b.getLsbD 0)

/-- The bit shifted out at the top (R161): bit 7 before the shift. -/
def shiftedOutHigh (b : Byte) : Byte := flagByte (b.getLsbD 7)

end Sys2Proof.Machine
end

