-- ==== Sys2Proof/Machine/Display.lean ====
section
/-!
DEFINITION. The display instructions (spec/41_display.md): `00E0` and the XOR-draw sprite unit
`Dxyn`.
-/

namespace Sys2Proof.Machine

/-- `FB[y][x]` (R12). -/
def Framebuffer.get (f : Framebuffer) (x : Fin Config.fbW) (y : Fin Config.fbH) : Bool :=
  (f[y.val])[x.val]

/-- `FB[y][x] <- b` (R12). -/
def Framebuffer.put (f : Framebuffer) (x : Fin Config.fbW) (y : Fin Config.fbH) (b : Bool) :
    Framebuffer :=
  f.set y.val ((f[y.val]).set x.val b)

/-- Every pixel 0 (R120). -/
def blankScreen : Framebuffer := Vector.replicate 32 (Vector.replicate 64 false)

/-- The linear index of a pixel: row-major order (R36). -/
def pixelIndex (x : Fin Config.fbW) (y : Fin Config.fbH) : Nat := y.val * Config.fbW + x.val

/-- What a draw has done so far: the screen, and whether a pixel was turned off (`hit`). -/
structure DrawState where
  screen : Framebuffer
  hit : Bool
  deriving DecidableEq, Repr

/-- The body of the inner loop of R121: one sprite bit at column `col` of the sprite. A 0 bit does
nothing; a 1 bit inverts its pixel, and turning a 1 off is a collision. -/
def drawPixel (x0 : Nat) (py : Fin Config.fbH) (b : Byte) (d : DrawState) (col : Nat) : DrawState :=
  if spriteBit b col then
    { screen := d.screen.put (wrapX (x0 + col)) py (!(d.screen.get (wrapX (x0 + col)) py))
      hit := d.hit || d.screen.get (wrapX (x0 + col)) py }
  else d

/-- One row of the sprite: its eight columns (R121). -/
def drawRow (x0 : Nat) (py : Fin Config.fbH) (b : Byte) (d : DrawState) : DrawState :=
  (List.range 8).foldl (drawPixel x0 py b) d

/-- The sprite: rows `0` to `n - 1`, row `k` from the byte `rows k` (R121). -/
def drawSprite (x0 y0 n : Nat) (rows : Nat → Byte) (f : Framebuffer) : DrawState :=
  (List.range n).foldl (fun d row => drawRow x0 (wrapY (y0 + row)) (rows row) d) ⟨f, false⟩

/-- `00E0` CLS (R120): every pixel 0; VF is not written. -/
def execCls (s : State) : Host.Outcome State Fault Refusal := .next (s.setFb blankScreen)

/-- `Dxyn` DRW (R121): the position is read from `V[x]`, `V[y]` before VF is written (decision
D12; UNVERIFIED, log entry 12), each row is `MemRead(I + row, 1)`, and VF takes the collision last. -/
def execDrw (x y : Reg) (n : Fin 16) (s : State) : Host.Outcome State Fault Refusal :=
  let d := drawSprite (s.readV x).toNat (s.readV y).toNat n.val
    (fun row => s.memRead (indexed s.i row)) s.fb
  .next ((s.setFb d.screen).writeV vF (flagByte d.hit))

end Sys2Proof.Machine
end

