-- ==== Sys2Proof/Machine/IndexMemory.lean ====
section
/-!
DEFINITION. The index-register and memory instructions (spec/45_index_memory.md). None writes VF
as a flag, none changes `PC`.
-/

namespace Sys2Proof.Machine

/-- `Annn` LD I, nnn (R170). -/
def execLdI (nnn : Addr12) (s : State) : Host.Outcome State Fault Refusal :=
  .next (s.setI (zextAddr nnn))

/-- `Fx1E` ADD I, Vx (R171): modulo 4096, no flag. -/
def execAddI (x : Reg) (s : State) : Host.Outcome State Fault Refusal :=
  .next (s.setI ((s.i + zextByte (s.readV x)) &&& 0x0FFF))

/-- `Fx29` LD F, Vx (R172). -/
def execLdF (x : Reg) (s : State) : Host.Outcome State Fault Refusal :=
  .next (s.setI (glyphAddr fontBase (s.readV x)))

/-- `Fx33` LD B, Vx (R173): hundreds at `I`, tens at `I + 1`, ones at `I + 2`. -/
def execLdB (x : Reg) (s : State) : Host.Outcome State Fault Refusal :=
  let b := s.readV x
  .next (((s.memWrite s.i (bcdHundreds b)).memWrite (indexed s.i 1) (bcdTens b)).memWrite
    (indexed s.i 2) (bcdOnes b))

/-- The body of the loop of `Fx55` (R174): `MEM[I + k] <- V[k]`. -/
def storeOne (s : State) (k : Nat) : State := s.memWrite (indexed s.i k) (s.readV (blockReg k))

/-- `Fx55` LD [I], Vx (R174): registers 0 to `x` inclusive; `I` unchanged (decision D17; UNVERIFIED, log
entry 16). -/
def execStRegs (x : Reg) (s : State) : Host.Outcome State Fault Refusal :=
  .next ((List.range (x.val + 1)).foldl storeOne s)

/-- The body of the loop of `Fx65` (R175): `V[k] <- MEM[I + k]`. -/
def loadOne (s : State) (k : Nat) : State := s.writeV (blockReg k) (s.memRead (indexed s.i k))

/-- `Fx65` LD Vx, [I] (R175): registers 0 to `x` inclusive; `I` unchanged (decision D17; UNVERIFIED, log
entry 16). -/
def execLdRegs (x : Reg) (s : State) : Host.Outcome State Fault Refusal :=
  .next ((List.range (x.val + 1)).foldl loadOne s)

end Sys2Proof.Machine
end

