-- ==== Sys2Proof/Machine/RegisterAlu.lean ====
section
/-!
DEFINITION. The register and ALU instructions (spec/44_register_alu.md). The statements of a rule
are executed in the order written, each reading the register file as the ones before left it
(R150, decision D16; UNVERIFIED, log entry 15): that fixes the result where VF is an operand.
-/

namespace Sys2Proof.Machine

/-- `6xkk` LD Vx, kk (R151). -/
def execLdByte (x : Reg) (kk : Byte) (s : State) : Host.Outcome State Fault Refusal :=
  .next (s.writeV x kk)

/-- `7xkk` ADD Vx, kk (R152): modulo 256, no flag. -/
def execAddByte (x : Reg) (kk : Byte) (s : State) : Host.Outcome State Fault Refusal :=
  .next (s.writeV x (s.readV x + kk))

/-- `8xy0` LD Vx, Vy (R153). -/
def execLdReg (x y : Reg) (s : State) : Host.Outcome State Fault Refusal :=
  .next (s.writeV x (s.readV y))

/-- `8xy1` OR Vx, Vy (R154): no flag. -/
def execOrReg (x y : Reg) (s : State) : Host.Outcome State Fault Refusal :=
  .next (s.writeV x (s.readV x ||| s.readV y))

/-- `8xy2` AND Vx, Vy (R155): no flag. -/
def execAndReg (x y : Reg) (s : State) : Host.Outcome State Fault Refusal :=
  .next (s.writeV x (s.readV x &&& s.readV y))

/-- `8xy3` XOR Vx, Vy (R156): no flag. -/
def execXorReg (x y : Reg) (s : State) : Host.Outcome State Fault Refusal :=
  .next (s.writeV x (s.readV x ^^^ s.readV y))

/-- `8xy4` ADD Vx, Vy (R157): the sum is held in a temporary, VF takes the carry, then `V[x]` the
sum modulo 256. -/
def execAddReg (x y : Reg) (s : State) : Host.Outcome State Fault Refusal :=
  let sum := (s.readV x).toNat + (s.readV y).toNat
  .next ((s.writeV vF (carryFlag sum)).writeV x (BitVec.ofNat 8 sum))

/-- `8xy5` SUB Vx, Vy (R158): VF takes the no-borrow flag, then the difference is formed from the
register file as that left it. -/
def execSubReg (x y : Reg) (s : State) : Host.Outcome State Fault Refusal :=
  let s1 := s.writeV vF (noBorrowFlag (s.readV x) (s.readV y))
  .next (s1.writeV x (s1.readV x - s1.readV y))

/-- `8xy6` SHR Vx (R159): VF takes bit 0, then `V[x]` is shifted right by one; `y` is ignored
(R89). -/
def execShr (x _y : Reg) (s : State) : Host.Outcome State Fault Refusal :=
  let s1 := s.writeV vF (shiftedOutLow (s.readV x))
  .next (s1.writeV x (s1.readV x >>> 1))

/-- `8xy7` SUBN Vx, Vy (R160): VF takes the no-borrow flag of `V[y] - V[x]`, then the difference
is formed from the register file as that left it. -/
def execSubn (x y : Reg) (s : State) : Host.Outcome State Fault Refusal :=
  let s1 := s.writeV vF (noBorrowFlag (s.readV y) (s.readV x))
  .next (s1.writeV x (s1.readV y - s1.readV x))

/-- `8xyE` SHL Vx (R161): VF takes bit 7, then `V[x]` is shifted left by one; `y` is ignored
(R89). -/
def execShl (x _y : Reg) (s : State) : Host.Outcome State Fault Refusal :=
  let s1 := s.writeV vF (shiftedOutHigh (s.readV x))
  .next (s1.writeV x (s1.readV x <<< 1))

/-- `Cxkk` RND Vx, kk (R162): one random byte, a free value, masked with `kk`. -/
def execRnd (x : Reg) (kk : Byte) (s : State) : Host.Outcome State Fault Refusal :=
  .next (s.draw.writeV x (s.randByte &&& kk))

end Sys2Proof.Machine
end

