-- ==== Sys2Proof/Machine/Skip.lean ====
section
/-!
DEFINITION. The six conditional skips (spec/43_skip.md). Only `PC` may change (R140).
-/

namespace Sys2Proof.Machine

/-- `3xkk` SE Vx, kk (R141). -/
def execSeByte (x : Reg) (kk : Byte) (s : State) : Host.Outcome State Fault Refusal :=
  .next (s.skipIf (s.readV x == kk))

/-- `4xkk` SNE Vx, kk (R142). -/
def execSneByte (x : Reg) (kk : Byte) (s : State) : Host.Outcome State Fault Refusal :=
  .next (s.skipIf (s.readV x != kk))

/-- `5xy0` SE Vx, Vy (R143). -/
def execSeReg (x y : Reg) (s : State) : Host.Outcome State Fault Refusal :=
  .next (s.skipIf (s.readV x == s.readV y))

/-- `9xy0` SNE Vx, Vy (R144). -/
def execSneReg (x y : Reg) (s : State) : Host.Outcome State Fault Refusal :=
  .next (s.skipIf (s.readV x != s.readV y))

/-- `Ex9E` SKP Vx (R145); the key index is R147's. -/
def execSkp (x : Reg) (s : State) : Host.Outcome State Fault Refusal :=
  .next (s.skipIf (s.keyDown (keyIndex (s.readV x))))

/-- `ExA1` SKNP Vx (R146); the key index is R147's. -/
def execSknp (x : Reg) (s : State) : Host.Outcome State Fault Refusal :=
  .next (s.skipIf (!(s.keyDown (keyIndex (s.readV x)))))

end Sys2Proof.Machine
end

