-- ==== Sys2Proof/Machine/TimerKey.lean ====
section
/-!
DEFINITION. The timer and key-wait instructions (spec/46_timer_key.md).
-/

namespace Sys2Proof.Machine

/-- `Fx07` LD Vx, DT (R180). -/
def execLdVxDT (x : Reg) (s : State) : Host.Outcome State Fault Refusal :=
  .next (s.writeV x s.dt)

/-- The sixteen keys in ascending order. -/
def allKeys : List (Fin 16) := [0, 1, 2, 3, 4, 5, 6, 7, 8, 9, 10, 11, 12, 13, 14, 15]

/-- The smallest `k` with `KEY[k]` = 1, if a key is pressed (R181, decision D18; UNVERIFIED, log entry 14). -/
def State.firstKey (s : State) : Option (Fin 16) := allKeys.find? s.keyDown

/-- The byte of a key's index (R181). -/
def keyByte (k : Fin 16) : Byte := BitVec.ofNat 8 k.val

/-- `Fx0A` LD Vx, K (R181): with a key pressed, `V[x]` takes the lowest pressed key's index; with
none, `WAIT` is set and `PC` goes back to this instruction. -/
def execLdVxK (x : Reg) (s : State) : Host.Outcome State Fault Refusal :=
  match s.firstKey with
  | some k => .next (s.writeV x (keyByte k))
  | none => .next ((s.setWait true).setPc (s.pc - 2))

/-- `Fx15` LD DT, Vx (R182). -/
def execLdDT (x : Reg) (s : State) : Host.Outcome State Fault Refusal :=
  .next (s.setDt (s.readV x))

/-- `Fx18` LD ST, Vx (R183). -/
def execLdST (x : Reg) (s : State) : Host.Outcome State Fault Refusal :=
  .next (s.setSt (s.readV x))

end Sys2Proof.Machine
end

