-- ==== Sys2Proof/Machine/Step.lean ====
section
/-!
DEFINITION. One `ExecuteCycle()` (spec/40_fetch_decode_dispatch.md R100, R107): the fault gate,
fetch, decode, dispatch to at most one handler.
-/

namespace Sys2Proof.Machine

/-- The cycle after fetch: decode `OPCODE` and run its one handler, or none (R102 to R104). -/
def dispatchFetched (s : State) : Host.Outcome State Fault Refusal :=
  match decodeWord s.opcode with
  | .ok i => exec i s
  | .error _ => execUnrecognised s

/-- One `ExecuteCycle()` (R107). With a fault latched nothing changes and the cycle stops with that
fault, the outcome `FAULTED(FAULT)` of R105 (DESIGN CHOICE, log entry 8). -/
def step (s : State) : Host.Outcome State Fault Refusal :=
  match faultGate s with
  | some f => .fault f
  | none => dispatchFetched (fetch s)

/-- `s` with the instruction whose bits are `w` stored at `PC`, where the next step fetches it. -/
def State.withFetchWord (s : State) (nbits w : Nat) : State := s.placeWord (tableWord nbits w)

end Sys2Proof.Machine
end

