-- ==== Sys2Proof/Machine/HostOps.lean ====
section
/-!
DEFINITION. What the host can do to the core and read from it besides running cycles
(spec/60_exceptions.md R199 to R207): the timers' tick, the keypad write, the ROM load, and the
observations. `Reset()` stands beside raising a fault in Machine/Ops.lean.
-/

namespace Sys2Proof.Machine

/-- A timer after one tick: one less while non-zero, 0 stays 0 (R203). -/
def tickByte (b : Byte) : Byte := if b = 0 then 0 else b - 1

/-- `TickTimers()` (R203, decision D19): both timers, and nothing else. -/
def State.tickTimers (s : State) : State := (s.setDt (tickByte s.dt)).setSt (tickByte s.st)

/-- `SetKey(k, b)` (R204): `KEY[k] <- b`, and nothing else. -/
def State.hostSetKey (s : State) (k : Fin 16) (b : Bool) : State := s.setKey k b

/-- `ROM_BASE`: where program bytes are loaded (spec/00_scope.md R7). -/
def romBase : Word := 0x200

/-- `ROM_MAX`: the largest ROM accepted, 4096 - 0x200 bytes (spec/00_scope.md R7). -/
def romMax : Nat := 3584

/-- Why a ROM load is turned away. -/
inductive LoadError where
  /-- `RomTooLargeError` (R201): more than `ROM_MAX` bytes. Recoverable: nothing changes. -/
  | romTooLarge
  deriving DecidableEq, Repr

/-- `LoadROM(bytes)` (R201): the bytes copied verbatim from 0x200, or the error with no change. -/
def State.loadROM (s : State) (bytes : List Byte) : Except LoadError State :=
  if bytes.length > romMax then .error .romTooLarge else .ok (s.memWriteList romBase bytes)

/-- `TONE = (ST != 0)` (R207). -/
def State.tone (s : State) : Bool := s.st != 0

/-- What the host can observe between operations (R205 to R207): the framebuffer, the sound timer
and the tone bit, and the two status registers. Reading changes nothing. -/
structure Observation where
  screen : Framebuffer
  soundTimer : Byte
  tone : Bool
  waiting : Bool
  fault : Option Fault
  deriving DecidableEq, Repr

/-- The host's view of the core (R206). -/
def State.observe (s : State) : Observation := ⟨s.fb, s.st, s.tone, s.wait, s.fault⟩

end Sys2Proof.Machine
end

