-- ==== Sys2Proof/Machine/Session.lean ====
section
/-!
DEFINITION. The core together with the host's serialised operations
(spec/60_exceptions.md R199 to R209, spec/70_reset_and_hazards.md R223): the outcome of a cycle
(spec/40_fetch_decode_dispatch.md R109), runs as finite or infinite sequences of operations (R208),
and several cores side by side (R212).
-/

namespace Sys2Proof.Machine

/-- The outcome `ExecuteCycle()` yields to the host (R109). -/
inductive CycleOutcome where
  /-- A recognised instruction ran, a still waiting `Fx0A` included. -/
  | ok
  /-- The diagnostic for a word that matches no pattern (R104, decision D9). -/
  | unrecognised (op : Word)
  /-- This cycle raised the fault, or the fault gate repeated it (R105, R192). -/
  | faulted (f : Fault)
  deriving DecidableEq, Repr

/-- The outcome of a cycle that got past the fault gate, read from the state it left: `FAULT` tells
whether it raised, `OPCODE` which word it executed (R30, R109). -/
def outcomeOf (t : State) : CycleOutcome :=
  match t.fault with
  | some f => .faulted f
  | none =>
    match decodeWord t.opcode with
    | .ok _ => .ok
    | .error _ => .unrecognised t.opcode

/-- `ExecuteCycle()` as the host sees it: the state after the call and its outcome (R100, R109).
At the fault gate the state is unchanged (R105). -/
def executeCycle (s : State) : Except Refusal (State × CycleOutcome) :=
  match step s with
  | .next t => .ok (t, outcomeOf t)
  | .fault f => .ok (s, .faulted f)
  | .refused r => .error r

/-- One operation of the host (R200 to R207). -/
inductive HostOp where
  | reset
  | loadROM (bytes : List Byte)
  | executeCycle
  | tickTimers
  | setKey (k : Fin 16) (pressed : Bool)
  | observe
  deriving DecidableEq, Repr

/-- What an operation reports to the host. -/
inductive Report where
  | done
  | romTooLarge
  | cycle (o : CycleOutcome)
  | observed (o : Observation)
  deriving DecidableEq, Repr

/-- The core and the one fact of the host's history that gives `LoadROM` its meaning: whether a
cycle has begun since the last reset (R201, decision D21; DESIGN CHOICE, log entry 5). -/
structure Session where
  core : State
  cyclesBegun : Bool
  deriving DecidableEq, Repr

/-- A core as constructed, owning the random source of that name (R212, R220). -/
def Session.construct (source : Nat) : Session := ⟨State.construct source, false⟩

/-- The core as constructed that owns source 0 (R220; DESIGN CHOICE, log entry 22). -/
def Session.start : Session := Session.construct 0

/-- One operation (R200 to R207). A load after the first cycle has no meaning and is refused
(R201, decision D21). -/
def Session.apply (m : Session) : HostOp → Except Refusal (Session × Report)
  | .reset => .ok (⟨m.core.hostReset, false⟩, .done)
  | .loadROM bytes =>
    if m.cyclesBegun then .error .loadAfterFirstCycle
    else
      match m.core.loadROM bytes with
      | .ok s => .ok (⟨s, false⟩, .done)
      | .error .romTooLarge => .ok (m, .romTooLarge)
  | .executeCycle =>
    match Machine.executeCycle m.core with
    | .ok (s, o) => .ok (⟨s, true⟩, .cycle o)
    | .error r => .error r
  | .tickTimers => .ok (⟨m.core.tickTimers, m.cyclesBegun⟩, .done)
  | .setKey k b => .ok (⟨m.core.hostSetKey k b, m.cyclesBegun⟩, .done)
  | .observe => .ok (m, .observed m.core.observe)

/-- A finite run: a sequence of operations in the host's order (R208). -/
def Session.run (m : Session) : List HostOp → Except Refusal Session
  | [] => .ok m
  | o :: os =>
    match m.apply o with
    | .ok (m', _) => Session.run m' os
    | .error r => .error r

/-- An infinite sequence of operations, the n-th at `ops n` (R208): the session after the first `n` of
them. -/
def Session.after (m : Session) (ops : Nat → HostOp) : Nat → Except Refusal Session
  | 0 => .ok m
  | n + 1 =>
    match Session.after m ops n with
    | .error r => .error r
    | .ok m' =>
      match m'.apply (ops n) with
      | .ok (m'', _) => .ok m''
      | .error r => .error r

/-- What the n-th operation of an infinite sequence reports to the host (R206). -/
def Session.reportAt (m : Session) (ops : Nat → HostOp) (n : Nat) : Except Refusal Report :=
  match m.after ops n with
  | .error r => .error r
  | .ok m' =>
    match m'.apply (ops n) with
    | .ok (_, report) => .ok report
    | .error r => .error r

/-! ## Cores side by side (R212) -/

/-- Several cores side by side: nothing is held but each core's own session. -/
abbrev Cores (n : Nat) := Vector Session n

/-- `n` cores as constructed, each owning a random source of its own (R212; DESIGN CHOICE, log entry
22). -/
def Cores.construct (n : Nat) : Cores n := Vector.ofFn (fun k => Session.construct k.val)

/-- One operation of the host on one of the cores. -/
def Cores.apply {n : Nat} (b : Cores n) (k : Fin n) (o : HostOp) :
    Except Refusal (Cores n × Report) :=
  match (b[k.val]).apply o with
  | .ok (m, r) => .ok (b.set k.val m, r)
  | .error r => .error r

end Sys2Proof.Machine
end

