-- ==== Sys2Proof/Safety.lean ====
section
/-!
DEFINITION. The terms claims are stated in: the invariants of spec/10_state.md R39, the states a
host can reach, and what "unchanged" means part by part.
-/

namespace Sys2Proof.Machine

/-- The invariants of R39 (`0 <= SP <= 16` and the widths are the types'), with the canonical form
of memory. -/
structure State.Inv (s : State) : Prop where
  mem_wf : s.mem.wf
  i_lt : s.i.toNat < 4096
  overflow_full : s.fault = some .stackOverflow → s.sp = 16
  underflow_empty : s.fault = some .stackUnderflow → s.sp = 0
  wait_keyWait : s.wait = true → s.opcode &&& 0xF0FF = 0xF00A ∧ s.fault = none

/-- The sessions the host's operations reach from construction, whichever random source the core owns
(R39, R208, R222). -/
inductive Session.Reachable : Session → Prop where
  | start (source : Nat) : Session.Reachable (Session.construct source)
  | next {m m' : Session} {o : HostOp} {r : Report} :
      Session.Reachable m → m.apply o = .ok (m', r) → Session.Reachable m'

/-- An infinite sequence of operations is a run from `m`: none of them is refused (R208). -/
def Session.IsInfiniteRun (m : Session) (ops : Nat → HostOp) : Prop :=
  ∀ n, ∃ m', m.after ops n = .ok m'

/-- The parts of the state of R20, for frame statements. `status` is `OPCODE` and `WAIT`; `draws`
and `source` are the model's own (log entries 2 and 22). -/
inductive Part where
  | memory | registers | index | pc | stack | delay | sound | screen | keys | status | fault | draws
  | source
  deriving DecidableEq, Repr

/-- The part is the same in two states: memory byte by byte, registers one by one, and so on. -/
def Part.same (s t : State) : Part → Prop
  | .memory => ∀ a : Word, t.memRead a = s.memRead a
  | .registers => ∀ r : Reg, t.readV r = s.readV r
  | .index => t.i = s.i
  | .pc => t.pc = s.pc
  | .stack => t.sp = s.sp ∧ ∀ k : Fin 16, t.stackAt k = s.stackAt k
  | .delay => t.dt = s.dt
  | .sound => t.st = s.st
  | .screen => ∀ x y, t.fb.get x y = s.fb.get x y
  | .keys => ∀ k : Fin 16, t.keyDown k = s.keyDown k
  | .status => t.opcode = s.opcode ∧ t.wait = s.wait
  | .fault => t.fault = s.fault
  | .draws => t.draws = s.draws
  | .source => t.source = s.source

/-- Every part of the state outside the listed ones is the same before and after. -/
def SameOutside (ps : List Part) (s t : State) : Prop := ∀ p, p ∉ ps → Part.same s t p

/-- Every register outside the listed ones is the same before and after. -/
def SameRegsExcept (rs : List Reg) (s t : State) : Prop := ∀ r, r ∉ rs → t.readV r = s.readV r

/-- Every byte of memory outside `n` bytes from `a` (each address masked) is the same before and
after. -/
def SameMemExcept (a : Word) (n : Nat) (s t : State) : Prop :=
  ∀ b : Word, (∀ k < n, maskAddr b ≠ maskAddr (indexed a k)) → t.memRead b = s.memRead b

/-! ## Tables of the spec, for claims over all instructions -/

/-- The condition of a conditional skip (R141 to R146; for the key skips the key index of R147);
`none` for every other instruction. -/
def skipCondition (s : State) : Instr → Option Bool
  | .seByte x kk => some (decide (s.readV x = kk))
  | .sneByte x kk => some (decide (s.readV x ≠ kk))
  | .seReg x y => some (decide (s.readV x = s.readV y))
  | .sneReg x y => some (decide (s.readV x ≠ s.readV y))
  | .skp x => some (s.keyDown (Fin.ofNat 16 (s.readV x).toNat))
  | .sknp x => some (!(s.keyDown (Fin.ofNat 16 (s.readV x).toNat)))
  | _ => none

/-- The "written by" column of R20: the parts of the state an instruction may write. -/
def writtenParts : Instr → List Part
  | .cls => [.screen]
  | .ret | .call _ => [.pc, .stack, .fault]
  | .jp _ | .jpV0 _ => [.pc]
  | .seByte _ _ | .sneByte _ _ | .seReg _ _ | .sneReg _ _ | .skp _ | .sknp _ => [.pc]
  | .ldByte _ _ | .addByte _ _ | .ldReg _ _ | .orReg _ _ | .andReg _ _ | .xorReg _ _
  | .addReg _ _ | .subReg _ _ | .shr _ _ | .subn _ _ | .shl _ _ => [.registers]
  | .ldVxDT _ | .ldRegs _ => [.registers]
  | .rnd _ _ => [.registers, .draws]
  | .drw _ _ _ => [.screen, .registers]
  | .ldVxK _ => [.registers, .pc, .status]
  | .ldDT _ => [.delay]
  | .ldST _ => [.sound]
  | .ldI _ | .addI _ | .ldF _ => [.index]
  | .ldB _ | .stRegs _ => [.memory]

/-- The registers an instruction may write: its destination, and VF where R22 has it written as a
flag. -/
def writtenRegs : Instr → List Reg
  | .ldByte x _ | .addByte x _ | .ldReg x _ | .orReg x _ | .andReg x _ | .xorReg x _ => [x]
  | .rnd x _ | .ldVxDT x | .ldVxK x => [x]
  | .addReg x _ | .subReg x _ | .shr x _ | .subn x _ | .shl x _ => [x, 15]
  | .drw _ _ _ => [15]
  | .ldRegs x => (List.range (x.val + 1)).map (Fin.ofNat 16)
  | .cls | .ret | .jp _ | .call _ | .jpV0 _ | .seByte _ _ | .sneByte _ _ | .seReg _ _
  | .sneReg _ _ | .skp _ | .sknp _ | .ldDT _ | .ldST _ | .ldI _ | .addI _ | .ldF _ | .ldB _
  | .stRegs _ => []

/-- The table of R25: `PC` after the cycle of an instruction fetched at `P`, from the state `s`
before the cycle. -/
def pcAfter (s : State) : Instr → Word
  | .jp nnn => BitVec.ofNat 16 nnn.toNat
  | .call nnn => if s.sp = 16 then s.pc + 2 else BitVec.ofNat 16 nnn.toNat
  | .ret => if s.sp = 0 then s.pc + 2 else s.stackAt (Fin.ofNat 16 (s.sp.val - 1))
  | .jpV0 nnn => BitVec.ofNat 16 (nnn.toNat + (s.readV 0).toNat)
  | .ldVxK _ => if ∃ k, s.keyDown k = true then s.pc + 2 else s.pc
  | i => if skipCondition s i = some true then s.pc + 4 else s.pc + 2

/-- Whether the sprite of `Dxyn` has a 1 bit over the pixel (R121): the pixel lies `dx` columns
right of and `dy` rows below the start, both counted with wraparound, and that bit of row `dy` is
set, bit 7 the leftmost. -/
def spriteCovers (s : State) (x y : Reg) (n : Nat) (c : Fin Config.fbW) (r : Fin Config.fbH) : Bool :=
  let dx := (c.val + 64 - (s.readV x).toNat % 64) % 64
  let dy := (r.val + 32 - (s.readV y).toNat % 32) % 32
  decide (dx < 8) && decide (dy < n) && (s.memRead (s.i + BitVec.ofNat 16 dy)).getLsbD (7 - dx)

/-- Two states that differ at most in the upper four bits of `PC` and of the stack entries (R24:
visible only to the host). -/
def SameUpToPcHighBits (s t : State) : Prop :=
  t.pc.toNat % 4096 = s.pc.toNat % 4096 ∧
  (∀ k, (t.stackAt k).toNat % 4096 = (s.stackAt k).toNat % 4096) ∧
  { t with pc := s.pc, stack := s.stack } = s

end Sys2Proof.Machine
end

