-- ==== Sys2Proof/Certificates/Slice0/Obligations.lean ====
section
/-!
DEFINITION. The statements for the provers, from the rules of spec/. A statement marked "the
spec's decision" rests on a clause the spec marks as its own choice (spec/92_eei_decisions.md).
-/

open Sys2Proof Sys2Proof.Machine

/-! ## Encoding -/

/-- Decoding the word of any instruction gives it back, every operand at every value. -/
def Obligations.DecodeEncodeRoundTrip : Prop :=
  ∀ i : Instr, decodeWord (encode i) = .ok i

/-- Encoding what a word decodes to gives the word back: decoding drops no bit. -/
def Obligations.EncodeDecodeRoundTrip : Prop :=
  ∀ (w : Word) (i : Instr), decodeWord w = .ok i → encode i = w

/-- The decoder accepts exactly the words some row of the opcode map selects, and rejects every
other word by name. -/
def Obligations.DecodeAcceptsExactlyTheOpcodeMap : Prop :=
  ∀ w : Word, ((∃ i, decodeWord w = .ok i) ↔ wellFormedWord w = true) ∧
    (decodeWord w = .error (.unrecognised w) ↔ wellFormedWord w = false)

/-- No word selects two rows of the opcode map. -/
def Obligations.OpcodeMapRowsDisjoint : Prop :=
  ∀ w : Word, opTable.Pairwise (fun r q => ¬(r.selects w = true ∧ q.selects w = true))

/-- Words of the spec's vectors and programs decode to the instructions they stand for, and two of
its unrecognised words to none. -/
def Obligations.SpecWordsDecode : Prop :=
  decodeWord 0x6A42 = .ok (.ldByte 10 0x42) ∧ decodeWord 0x8124 = .ok (.addReg 1 2) ∧
  decodeWord 0xD125 = .ok (.drw 1 2 5) ∧ decodeWord 0x2ABC = .ok (.call 0xABC) ∧
  decodeWord 0xF433 = .ok (.ldB 4) ∧ decodeWord 0xE1A1 = .ok (.sknp 1) ∧
  decodeWord 0xA2F0 = .ok (.ldI 0x2F0) ∧
  decodeWord 0x01E0 = .error (.unrecognised 0x01E0) ∧
  decodeWord 0x5121 = .error (.unrecognised 0x5121)

/-! ## The cycle -/

/-- With no fault latched, a cycle whose two bytes at `PC` (each address masked, the first the
high byte) decode to `i` is `exec i` of the state with `OPCODE` the word, `PC` two further and
`WAIT` cleared. -/
def Obligations.StepRunsTheDecodedInstruction : Prop :=
  ∀ (s : State) (i : Instr), s.fault = none →
    decodeWord (s.mem.read (s.pc.toNat % 4096) ++ s.mem.read ((s.pc + 1).toNat % 4096)) = .ok i →
    step s = exec i { s with
      opcode := s.mem.read (s.pc.toNat % 4096) ++ s.mem.read ((s.pc + 1).toNat % 4096)
      pc := s.pc + 2
      wait := false }

/-- A cycle whose word matches no pattern only fetches: `OPCODE` holds the word, `PC` is `P + 2`,
`WAIT` is 0, everything else is as before, and the host is told the word (the form of that
diagnostic is the spec's decision D9). -/
def Obligations.UnrecognisedWordIsNoOp : Prop :=
  ∀ s : State, s.fault = none → wellFormedWord s.wordAtPc = false →
    ∃ t, step s = .next t ∧ t.opcode = s.wordAtPc ∧ t.pc = s.pc + 2 ∧ t.wait = false ∧
      SameOutside [.pc, .status] s t ∧
      executeCycle s = .ok (t, .unrecognised s.wordAtPc)

/-- With a fault latched a cycle changes nothing and yields that fault again (the spec's decision
D15; that the model's step then stops is log entry 8). -/
def Obligations.FaultGateFreezesTheCore : Prop :=
  ∀ (s : State) (f : Fault), s.fault = some f →
    step s = .fault f ∧ executeCycle s = .ok (s, .faulted f)

/-- Every handler completes from every state, and so does every cycle: it gives a next state unless
a fault was latched before it, and no cycle is refused. -/
def Obligations.EveryCycleCompletes : Prop :=
  ∀ s : State, (∀ i : Instr, ∃ t, exec i s = .next t) ∧
    (s.fault = none → ∃ t, step s = .next t) ∧
    (∀ r, step s ≠ .refused r) ∧ (∀ f, step s = .fault f → s.fault = some f)

/-- The outcome the host is told (the spec's decisions D9, D14): `OK` for a recognised word unless
its handler raised, `FAULTED` with the fault if it did, `UNRECOGNISED` for any other word. -/
def Obligations.CycleOutcomesAreReported : Prop :=
  ∀ s : State, s.fault = none → ∃ t o, executeCycle s = .ok (t, o) ∧
    (∀ i, decodeWord s.wordAtPc = .ok i → t.fault = none → o = .ok) ∧
    (∀ f, t.fault = some f → o = .faulted f) ∧
    (wellFormedWord s.wordAtPc = false → o = .unrecognised s.wordAtPc)

/-- `PC` after every cycle, instruction by instruction (that sums on `PC` wrap at 65536 and that
`Bnnn` is not reduced is the spec's decision D6; the key index and the key wait are D13, D18). -/
def Obligations.PcAfterEveryInstruction : Prop :=
  ∀ (s t : State) (i : Instr), s.fault = none → decodeWord s.wordAtPc = .ok i →
    step s = .next t → t.pc = pcAfter s i

/-- After a cycle that got past the fault gate, `OPCODE` is the word it fetched, and `WAIT` is 1
exactly when that word was an `Fx0A` and no key was pressed (the spec's decision D11). -/
def Obligations.WaitReportsABlockedKeyWait : Prop :=
  ∀ s t : State, s.fault = none → step s = .next t → t.opcode = s.wordAtPc ∧
    (t.wait = true ↔ (∃ x, decodeWord s.wordAtPc = .ok (.ldVxK x)) ∧ ∀ k, s.keyDown k = false)

/-- A fault is latched exactly by a call with a full stack or a return with an empty one, and that
cycle changes nothing but what fetch changed and `FAULT` (the spec's decisions D14, D15). -/
def Obligations.FaultsAreRaisedExactlyByStackErrors : Prop :=
  ∀ s t : State, s.fault = none → step s = .next t →
    (t.fault = some .stackOverflow ↔
      s.sp = 16 ∧ ∃ nnn, decodeWord s.wordAtPc = .ok (.call nnn)) ∧
    (t.fault = some .stackUnderflow ↔ s.sp = 0 ∧ decodeWord s.wordAtPc = .ok .ret) ∧
    (t.fault ≠ none → t.pc = s.pc + 2 ∧ t.opcode = s.wordAtPc ∧ t.wait = false ∧
      SameOutside [.pc, .status, .fault] s t)

/-! ## Reset and invariants -/

/-- What reset leaves: zero in every register, timer, stack entry, pixel and key, `PC` at 0x200,
no fault, no wait (`WAIT` and `FAULT` are the spec's decisions D11, D14), memory 0 but for the 80
bytes of the font, written out here glyph by glyph (their place and values are the spec's decisions
D1, D3); whichever random source the core owns (log entry 22), nothing else differs. -/
def Obligations.ResetLeavesTheTable : Prop :=
  (∀ r, State.reset.readV r = 0) ∧ State.reset.i = 0 ∧ State.reset.pc = 0x200 ∧
  State.reset.sp = 0 ∧ (∀ k, State.reset.stackAt k = 0) ∧ State.reset.dt = 0 ∧
  State.reset.st = 0 ∧ (∀ c r, State.reset.fb.get c r = false) ∧
  (∀ k, State.reset.keyDown k = false) ∧ State.reset.opcode = 0 ∧ State.reset.wait = false ∧
  State.reset.fault = none ∧
  (∀ a : Word, (maskAddr a < 0x50 ∨ 0xA0 ≤ maskAddr a) → State.reset.memRead a = 0) ∧
  (List.range 80).map (fun k => State.reset.memRead (BitVec.ofNat 16 (0x50 + k))) =
    [0xF0, 0x90, 0x90, 0x90, 0xF0,  0x20, 0x60, 0x20, 0x20, 0x70,
     0xF0, 0x10, 0xF0, 0x80, 0xF0,  0xF0, 0x10, 0xF0, 0x10, 0xF0,
     0x90, 0x90, 0xF0, 0x10, 0x10,  0xF0, 0x80, 0xF0, 0x10, 0xF0,
     0xF0, 0x80, 0xF0, 0x90, 0xF0,  0xF0, 0x10, 0x20, 0x40, 0x40,
     0xF0, 0x90, 0xF0, 0x90, 0xF0,  0xF0, 0x90, 0xF0, 0x10, 0xF0,
     0xF0, 0x90, 0xF0, 0x90, 0x90,  0xE0, 0x90, 0xE0, 0x90, 0xE0,
     0xF0, 0x80, 0x80, 0x80, 0xF0,  0xE0, 0x90, 0x90, 0x90, 0xE0,
     0xF0, 0x80, 0xF0, 0x80, 0xF0,  0xF0, 0x80, 0xF0, 0x80, 0x80] ∧
  (∀ source, SameOutside [.source] State.reset (State.construct source))

/-- The first cycle after reset fetches from 0x200 and 0x201, whatever a load put in memory. -/
def Obligations.FirstFetchIsAtEntryPoint : Prop :=
  ∀ m : Memory, ∃ t, step { State.reset with mem := m } = .next t ∧
    t.opcode = m.read 0x200 ++ m.read 0x201

/-- The state after reset satisfies the invariant. -/
def Obligations.ResetSatisfiesTheInvariant : Prop := State.reset.Inv

/-- Every cycle keeps the invariant: `I` below 4096, `FAULT` only with the stack full or empty as
it says, `WAIT` only on an `Fx0A` and without a fault, and (the model's own) memory in canonical
form. -/
def Obligations.StepKeepsTheInvariant : Prop :=
  ∀ s t : State, s.Inv → step s = .next t → t.Inv

/-- The invariant holds in every state the host's operations reach from construction, and all along
every infinite sequence of them; and an infinite sequence in which no load comes after a cycle is a
run: no operation of it is refused (that window is the spec's decision D21). -/
def Obligations.ReachableStatesSatisfyTheInvariant : Prop :=
  (∀ m : Session, m.Reachable → m.core.Inv) ∧
  (∀ (source : Nat) (ops : Nat → HostOp) (n : Nat) (m : Session),
    (Session.construct source).after ops n = .ok m → m.core.Inv) ∧
  (∀ (source : Nat) (ops : Nat → HostOp),
    (∀ k n bytes, k < n → ops k = .executeCycle → ops n ≠ .loadROM bytes) →
    (Session.construct source).IsInfiniteRun ops)

/-! ## Frames over all instructions -/

/-- An instruction writes only the parts of the state the inventory's "written by" column gives
it. -/
def Obligations.InstructionsWriteOnlyTheirParts : Prop :=
  ∀ (i : Instr) (s t : State), exec i s = .next t → SameOutside (writtenParts i) s t

/-- An instruction writes only its destination registers, and VF as a flag only where its rule
says so (the spec's decision D24). That six opcodes write it is the model's reading of R22, which says
"exactly seven" and lists six (log entry 10). -/
def Obligations.InstructionsWriteOnlyTheirRegisters : Prop :=
  ∀ (i : Instr) (s t : State), exec i s = .next t → SameRegsExcept (writtenRegs i) s t

/-! ## Display -/

/-- `00E0` zeroes every pixel and changes nothing else. -/
def Obligations.ClearZeroesEveryPixel : Prop :=
  ∀ s : State, ∃ t, exec .cls s = .next t ∧ (∀ c r, t.fb.get c r = false) ∧
    SameOutside [.screen] s t

/-- `Dxyn`, closed form: every pixel is XORed with the sprite bit over it, with wraparound, the
position read before VF is written; VF is 1 exactly when a pixel that was 1 met a 1 bit. The bit
order and the wrap of every pixel are the spec's decision D10, the read order D12. -/
def Obligations.DrawXorsTheSpriteOntoTheScreen : Prop :=
  ∀ (x y : Reg) (n : Fin 16) (s : State), ∃ t, exec (.drw x y n) s = .next t ∧
    (∀ c r, t.fb.get c r = (s.fb.get c r ^^ spriteCovers s x y n.val c r)) ∧
    ((∃ c r, s.fb.get c r = true ∧ spriteCovers s x y n.val c r = true) → t.readV 15 = 1) ∧
    ((∀ c r, s.fb.get c r = true → spriteCovers s x y n.val c r = false) → t.readV 15 = 0) ∧
    SameRegsExcept [15] s t ∧ SameOutside [.screen, .registers] s t

/-- Drawing the same sprite again at the same position restores the screen, and the second draw
collides exactly when the first one turned some pixel on. -/
def Obligations.DrawingTwiceRestoresTheScreen : Prop :=
  ∀ (x y : Reg) (n : Fin 16) (s t : State), exec (.drw x y n) s = .next t →
    (t.readV x).toNat % 64 = (s.readV x).toNat % 64 →
    (t.readV y).toNat % 32 = (s.readV y).toNat % 32 →
    ∃ u, exec (.drw x y n) t = .next u ∧ (∀ c r, u.fb.get c r = s.fb.get c r) ∧
      (u.readV 15 = 1 ↔ ∃ c r, s.fb.get c r = false ∧ t.fb.get c r = true)

/-! ## Control flow -/

/-- `1nnn` sets `PC` to the address, its upper four bits zero, and changes nothing else. -/
def Obligations.JumpSetsPc : Prop :=
  ∀ (nnn : Addr12) (s : State), ∃ t, exec (.jp nnn) s = .next t ∧
    t.pc.toNat = nnn.toNat ∧ SameOutside [.pc] s t

/-- `Bnnn` sets `PC` to the unreduced sum of the address and V0 (the spec's decision D6) and
changes nothing else. -/
def Obligations.JumpPlusV0SetsPc : Prop :=
  ∀ (nnn : Addr12) (s : State), ∃ t, exec (.jpV0 nnn) s = .next t ∧
    t.pc.toNat = nnn.toNat + (s.readV 0).toNat ∧ SameOutside [.pc] s t

/-- `2nnn`: with `SP` below 16 it pushes the advanced `PC` at `STACK[SP]`, raises `SP` by one and
jumps, every other entry kept; with `SP` at 16 it latches `STACK_OVERFLOW` and changes nothing else
(how a fault is held and what it leaves are the spec's decisions D14, D15). -/
def Obligations.CallPushesAndJumps : Prop :=
  ∀ (nnn : Addr12) (s : State),
    (∀ k : Fin 16, s.sp.val = k.val →
      ∃ t, exec (.call nnn) s = .next t ∧ t.stackAt k = s.pc ∧
        (∀ q, q ≠ k → t.stackAt q = s.stackAt q) ∧ t.sp.val = k.val + 1 ∧
        t.pc.toNat = nnn.toNat ∧ SameOutside [.pc, .stack] s t) ∧
    (s.sp.val = 16 → ∃ t, exec (.call nnn) s = .next t ∧ t.fault = some .stackOverflow ∧
      SameOutside [.fault] s t)

/-- `00EE`: with `SP` above 0 it lowers `SP` by one and takes `PC` from the entry there, no entry
changed; with `SP` at 0 it latches `STACK_UNDERFLOW` and changes nothing else (the spec's decisions
D14, D15). -/
def Obligations.ReturnPopsIntoPc : Prop :=
  ∀ s : State,
    (∀ k : Fin 16, s.sp.val = k.val + 1 →
      ∃ t, exec .ret s = .next t ∧ t.pc = s.stackAt k ∧ t.sp.val = k.val ∧
        (∀ q, t.stackAt q = s.stackAt q) ∧ SameOutside [.pc, .stack] s t) ∧
    (s.sp.val = 0 → ∃ t, exec .ret s = .next t ∧ t.fault = some .stackUnderflow ∧
      SameOutside [.fault] s t)

/-- A call followed at once by a return resumes at the instruction after the call, with `SP` as
before: run from any state with a fetchable call at `PC` whose target holds a return. -/
def Obligations.CallThenReturnResumes : Prop :=
  ∀ (s t : State) (nnn : Addr12), s.fault = none → s.sp.val < 16 →
    decodeWord s.wordAtPc = .ok (.call nnn) → step s = .next t →
    decodeWord t.wordAtPc = .ok .ret →
    ∃ u, step t = .next u ∧ u.pc = s.pc + 2 ∧ u.sp = s.sp

/-! ## Skips -/

/-- The four skips on register values: `PC` two further when the whole values compare as the rule
says, and nothing else changes. -/
def Obligations.RegisterSkipsCompareAndSkip : Prop :=
  ∀ (x y : Reg) (kk : Byte) (s : State),
    (∃ t, exec (.seByte x kk) s = .next t ∧
      t.pc = (if s.readV x = kk then s.pc + 2 else s.pc) ∧ SameOutside [.pc] s t) ∧
    (∃ t, exec (.sneByte x kk) s = .next t ∧
      t.pc = (if s.readV x ≠ kk then s.pc + 2 else s.pc) ∧ SameOutside [.pc] s t) ∧
    (∃ t, exec (.seReg x y) s = .next t ∧
      t.pc = (if s.readV x = s.readV y then s.pc + 2 else s.pc) ∧ SameOutside [.pc] s t) ∧
    (∃ t, exec (.sneReg x y) s = .next t ∧
      t.pc = (if s.readV x ≠ s.readV y then s.pc + 2 else s.pc) ∧ SameOutside [.pc] s t)

/-- The two skips on a key: the key is the one the low four bits of `V[x]` select (the spec's
decision D13); `PC` two further when it is, or is not, pressed, and nothing else changes. -/
def Obligations.KeySkipsTestTheSelectedKey : Prop :=
  ∀ (x : Reg) (k : Fin 16) (s : State), (s.readV x).toNat % 16 = k.val →
    (∃ t, exec (.skp x) s = .next t ∧
      t.pc = (if s.keyDown k = true then s.pc + 2 else s.pc) ∧ SameOutside [.pc] s t) ∧
    (∃ t, exec (.sknp x) s = .next t ∧
      t.pc = (if s.keyDown k = true then s.pc else s.pc + 2) ∧ SameOutside [.pc] s t)

/-- Over a whole cycle, each of the six skips advances `PC` by exactly 4 from its value before the
fetch when its condition holds and by exactly 2 otherwise, and writes nothing but what fetch
writes. -/
def Obligations.SkipCyclesAdvanceByFourOrTwo : Prop :=
  ∀ (s : State) (i : Instr) (c : Bool), s.fault = none → decodeWord s.wordAtPc = .ok i →
    skipCondition s i = some c →
    ∃ t, step s = .next t ∧ t.pc = s.pc + (if c = true then 4 else 2) ∧
      t.opcode = s.wordAtPc ∧ t.wait = false ∧ SameOutside [.pc, .status] s t

/-! ## Registers and ALU -/

/-- `6xkk` loads the byte and `8xy0` copies `V[y]`; neither changes anything else. -/
def Obligations.RegisterLoads : Prop :=
  ∀ (x y : Reg) (kk : Byte) (s : State),
    (∃ t, exec (.ldByte x kk) s = .next t ∧
      t.readV x = kk ∧ SameRegsExcept [x] s t ∧ SameOutside [.registers] s t) ∧
    (∃ t, exec (.ldReg x y) s = .next t ∧
      t.readV x = s.readV y ∧ SameRegsExcept [x] s t ∧ SameOutside [.registers] s t)

/-- `7xkk` adds the byte modulo 256, with no flag. -/
def Obligations.AddImmediateWraps : Prop :=
  ∀ (x : Reg) (kk : Byte) (s : State), ∃ t, exec (.addByte x kk) s = .next t ∧
    (t.readV x).toNat = ((s.readV x).toNat + kk.toNat) % 256 ∧
    SameRegsExcept [x] s t ∧ SameOutside [.registers] s t

/-- `8xy1`, `8xy2`, `8xy3` write the bitwise or, and, exclusive or into `V[x]`, bit by bit, and no
flag. -/
def Obligations.BitwiseOperations : Prop :=
  ∀ (x y : Reg) (s : State),
    (∃ t, exec (.orReg x y) s = .next t ∧
      (∀ b < 8, (t.readV x).getLsbD b = ((s.readV x).getLsbD b || (s.readV y).getLsbD b)) ∧
      SameRegsExcept [x] s t ∧ SameOutside [.registers] s t) ∧
    (∃ t, exec (.andReg x y) s = .next t ∧
      (∀ b < 8, (t.readV x).getLsbD b = ((s.readV x).getLsbD b && (s.readV y).getLsbD b)) ∧
      SameRegsExcept [x] s t ∧ SameOutside [.registers] s t) ∧
    (∃ t, exec (.xorReg x y) s = .next t ∧
      (∀ b < 8, (t.readV x).getLsbD b = ((s.readV x).getLsbD b ^^ (s.readV y).getLsbD b)) ∧
      SameRegsExcept [x] s t ∧ SameOutside [.registers] s t)

/-- `8xy4`: `V[x]` is the sum modulo 256 of the old values, whichever of the registers are VF; VF
is the carry unless it is the destination. -/
def Obligations.AddWithCarryOut : Prop :=
  ∀ (x y : Reg) (s : State), ∃ t, exec (.addReg x y) s = .next t ∧
    (t.readV x).toNat = ((s.readV x).toNat + (s.readV y).toNat) % 256 ∧
    (x ≠ 15 → t.readV 15 = if (s.readV x).toNat + (s.readV y).toNat > 255 then 1 else 0) ∧
    SameRegsExcept [x, 15] s t ∧ SameOutside [.registers] s t

/-- `8xy5` in every aliasing case: `f` is 1 for no borrow; where VF is the destination or the
subtrahend the difference is formed after VF took `f` (the statement order is the spec's decision
D16). -/
def Obligations.SubtractInEveryAliasingCase : Prop :=
  ∀ (x y : Reg) (s : State) (f : Byte),
    f = (if (s.readV y).toNat ≤ (s.readV x).toNat then 1 else 0) →
    ∃ t, exec (.subReg x y) s = .next t ∧
      (x ≠ 15 → t.readV 15 = f) ∧
      (x ≠ 15 → y ≠ 15 → t.readV x = s.readV x - s.readV y) ∧
      (x = 15 → y ≠ 15 → t.readV 15 = f - s.readV y) ∧
      (x ≠ 15 → y = 15 → t.readV x = s.readV x - f) ∧
      (x = 15 → y = 15 → t.readV 15 = 0) ∧
      SameRegsExcept [x, 15] s t ∧ SameOutside [.registers] s t

/-- `8xy7` in every aliasing case, as `8xy5` with the operands exchanged (the spec's decision
D16). -/
def Obligations.ReverseSubtractInEveryAliasingCase : Prop :=
  ∀ (x y : Reg) (s : State) (f : Byte),
    f = (if (s.readV x).toNat ≤ (s.readV y).toNat then 1 else 0) →
    ∃ t, exec (.subn x y) s = .next t ∧
      (x ≠ 15 → t.readV 15 = f) ∧
      (x ≠ 15 → y ≠ 15 → t.readV x = s.readV y - s.readV x) ∧
      (x = 15 → y ≠ 15 → t.readV 15 = s.readV y - f) ∧
      (x ≠ 15 → y = 15 → t.readV x = f - s.readV x) ∧
      (x = 15 → y = 15 → t.readV 15 = 0) ∧
      SameRegsExcept [x, 15] s t ∧ SameOutside [.registers] s t

/-- `8xy6` and `8xyE`: `V[x]` shifted by one in place, VF the bit shifted out; with VF as `x` the
flag itself is shifted (the spec's decision D16), giving 0 for the right shift and twice the old
bit 7 for the left; `y` has no effect. -/
def Obligations.ShiftsByOneInPlace : Prop :=
  ∀ (x y z : Reg) (s : State),
    (exec (.shr x y) s = exec (.shr x z) s ∧ exec (.shl x y) s = exec (.shl x z) s) ∧
    (∃ t, exec (.shr x y) s = .next t ∧
      (x ≠ 15 → (t.readV x).toNat = (s.readV x).toNat / 2 ∧
        (t.readV 15).toNat = (s.readV x).toNat % 2) ∧
      (x = 15 → t.readV 15 = 0) ∧ SameRegsExcept [x, 15] s t ∧ SameOutside [.registers] s t) ∧
    (∃ t, exec (.shl x y) s = .next t ∧
      (x ≠ 15 → (t.readV x).toNat = 2 * (s.readV x).toNat % 256 ∧
        (t.readV 15).toNat = (s.readV x).toNat / 128) ∧
      (x = 15 → (t.readV 15).toNat = 2 * ((s.readV 15).toNat / 128)) ∧
      SameRegsExcept [x, 15] s t ∧ SameOutside [.registers] s t)

/-- `Cxkk` writes the next byte of the core's random source masked with `kk` and consumes that byte.
The byte is the free value of log entry 1, selected by the model's own fields (log entries 2 and 22):
whatever it is, no bit outside `kk` is set. -/
def Obligations.RandomByteIsMasked : Prop :=
  ∀ (x : Reg) (kk : Byte) (s : State), ∃ t, exec (.rnd x kk) s = .next t ∧
    t.readV x = Config.randByte s.source s.draws &&& kk ∧ t.readV x &&& ~~~kk = 0 ∧
    t.draws = s.draws + 1 ∧
    SameRegsExcept [x] s t ∧ SameOutside [.registers, .draws] s t

/-! ## Index register and memory -/

/-- `Annn` loads `I` with the address, its upper four bits zero. -/
def Obligations.LoadIndex : Prop :=
  ∀ (nnn : Addr12) (s : State), ∃ t, exec (.ldI nnn) s = .next t ∧
    t.i.toNat = nnn.toNat ∧ SameOutside [.index] s t

/-- `Fx1E` adds `V[x]` to `I` modulo 4096, with no flag. -/
def Obligations.AddToIndexWraps : Prop :=
  ∀ (x : Reg) (s : State), ∃ t, exec (.addI x) s = .next t ∧
    t.i.toNat = (s.i.toNat + (s.readV x).toNat) % 4096 ∧ SameOutside [.index] s t

/-- `Fx29` points `I` at 0x050 + 5 * `V[x]`, the whole byte used (the font's base is the spec's
decision D1, the missing mask D23); for a digit 0 to 15 of a core whose memory is as constructed the
byte there is that glyph's top row, written out here (the glyphs are the spec's decision D3). -/
def Obligations.GlyphAddressOfTheWholeByte : Prop :=
  ∀ (x : Reg) (s : State), ∃ t, exec (.ldF x) s = .next t ∧
    t.i.toNat = 0x050 + 5 * (s.readV x).toNat ∧
    (s.mem = [] → (s.readV x).toNat < 16 →
      t.memRead t.i = [0xF0, 0x20, 0xF0, 0xF0, 0x90, 0xF0, 0xF0, 0xF0, 0xF0, 0xF0, 0xF0, 0xE0,
        0xF0, 0xE0, 0xF0, 0xF0].getD (s.readV x).toNat 0) ∧
    SameOutside [.index] s t

/-- `Fx33` stores the hundreds, tens and ones of `V[x]` at `I`, `I + 1`, `I + 2`, each address
masked, and changes no other byte. -/
def Obligations.BcdStoresThreeDigits : Prop :=
  ∀ (x : Reg) (s : State), ∃ t, exec (.ldB x) s = .next t ∧
    (t.memRead s.i).toNat = (s.readV x).toNat / 100 ∧
    (t.memRead (s.i + 1)).toNat = (s.readV x).toNat / 10 % 10 ∧
    (t.memRead (s.i + 2)).toNat = (s.readV x).toNat % 10 ∧
    SameMemExcept s.i 3 s t ∧ SameOutside [.memory] s t

/-- `Fx55` stores `V[0]` to `V[x]`, both ends included, at `I` onward, each address masked, and
changes no other byte; `I` is unchanged (the spec's decision D17). -/
def Obligations.BlockStoreCopiesRegisters : Prop :=
  ∀ (x : Reg) (s : State), ∃ t, exec (.stRegs x) s = .next t ∧
    (∀ k : Reg, k ≤ x → t.memRead (s.i + BitVec.ofNat 16 k.val) = s.readV k) ∧
    SameMemExcept s.i (x.val + 1) s t ∧ SameOutside [.memory] s t

/-- `Fx65` loads `V[0]` to `V[x]`, both ends included, from `I` onward, each address masked; the
registers above `x` and `I` are unchanged (the spec's decision D17). -/
def Obligations.BlockLoadCopiesMemory : Prop :=
  ∀ (x : Reg) (s : State), ∃ t, exec (.ldRegs x) s = .next t ∧
    (∀ k : Reg, k ≤ x → t.readV k = s.memRead (s.i + BitVec.ofNat 16 k.val)) ∧
    (∀ k : Reg, x < k → t.readV k = s.readV k) ∧ SameOutside [.registers] s t

/-- Storing a block and loading it again with the same `x` and `I`, from memory not changed in
between, restores the registers bit for bit. -/
def Obligations.BlockStoreThenLoadRestores : Prop :=
  ∀ (x : Reg) (s t u : State), exec (.stRegs x) s = .next t → u.i = s.i →
    (∀ a, u.memRead a = t.memRead a) →
    ∃ v, exec (.ldRegs x) u = .next v ∧ ∀ k : Reg, k ≤ x → v.readV k = s.readV k

/-- A store is seen by the very next fetch, one byte at a time: where `Fx55` stores `V[j]` over the
first (second) byte at `PC`, the high (low) byte of the next fetch's word is `V[j]`; where `Fx33`
stores its digit number `j` there, it is that digit; a byte not stored over is the one that was
there. (The inclusive range of `Fx55` is the spec's decision D17.) -/
def Obligations.NextFetchSeesTheStore : Prop :=
  ∀ (s t : State) (x : Reg),
    (exec (.stRegs x) s = .next t →
      (∀ j ≤ x, maskAddr (s.i + BitVec.ofNat 16 j.val) = maskAddr t.pc →
        (fetch t).opcode.toNat / 256 = (s.readV j).toNat) ∧
      (∀ j ≤ x, maskAddr (s.i + BitVec.ofNat 16 j.val) = maskAddr (t.pc + 1) →
        (fetch t).opcode.toNat % 256 = (s.readV j).toNat) ∧
      ((∀ j ≤ x, maskAddr (s.i + BitVec.ofNat 16 j.val) ≠ maskAddr t.pc) →
        (fetch t).opcode.toNat / 256 = (s.memRead t.pc).toNat) ∧
      ((∀ j ≤ x, maskAddr (s.i + BitVec.ofNat 16 j.val) ≠ maskAddr (t.pc + 1)) →
        (fetch t).opcode.toNat % 256 = (s.memRead (t.pc + 1)).toNat)) ∧
    (exec (.ldB x) s = .next t → ∀ digits : List Nat,
      digits = [(s.readV x).toNat / 100, (s.readV x).toNat / 10 % 10, (s.readV x).toNat % 10] →
      (∀ j < 3, maskAddr (s.i + BitVec.ofNat 16 j) = maskAddr t.pc →
        (fetch t).opcode.toNat / 256 = digits.getD j 0) ∧
      (∀ j < 3, maskAddr (s.i + BitVec.ofNat 16 j) = maskAddr (t.pc + 1) →
        (fetch t).opcode.toNat % 256 = digits.getD j 0) ∧
      ((∀ j < 3, maskAddr (s.i + BitVec.ofNat 16 j) ≠ maskAddr t.pc) →
        (fetch t).opcode.toNat / 256 = (s.memRead t.pc).toNat) ∧
      ((∀ j < 3, maskAddr (s.i + BitVec.ofNat 16 j) ≠ maskAddr (t.pc + 1)) →
        (fetch t).opcode.toNat % 256 = (s.memRead (t.pc + 1)).toNat))

/-- Every address is reduced modulo 4096 before use: addresses equal modulo 4096 read the same
byte and write the same memory. -/
def Obligations.AddressesAreModulo4096 : Prop :=
  ∀ (s : State) (a b : Word) (u : Byte), a.toNat % 4096 = b.toNat % 4096 →
    s.memRead a = s.memRead b ∧ s.memWrite a u = s.memWrite b u

/-! ## Timers and keys -/

/-- `Fx07` reads the delay timer, `Fx15` and `Fx18` write the timers; nothing else changes. -/
def Obligations.TimerMoves : Prop :=
  ∀ (x : Reg) (s : State),
    (∃ t, exec (.ldVxDT x) s = .next t ∧ t.readV x = s.dt ∧ SameRegsExcept [x] s t ∧
      SameOutside [.registers] s t) ∧
    (∃ t, exec (.ldDT x) s = .next t ∧ t.dt = s.readV x ∧ SameOutside [.delay] s t) ∧
    (∃ t, exec (.ldST x) s = .next t ∧ t.st = s.readV x ∧ SameOutside [.sound] s t)

/-- `Fx0A` with a key pressed writes the lowest pressed key's index and goes on; with none it sets
`WAIT`, takes `PC` back by 2 and writes nothing else (lowest key and level are the spec's decision
D18, the flag D11). -/
def Obligations.KeyWaitTakesTheLowestKey : Prop :=
  ∀ (x : Reg) (s : State),
    (∀ k : Fin 16, s.keyDown k = true → (∀ q < k, s.keyDown q = false) →
      ∃ t, exec (.ldVxK x) s = .next t ∧ (t.readV x).toNat = k.val ∧
        SameRegsExcept [x] s t ∧ SameOutside [.registers] s t) ∧
    ((∀ k, s.keyDown k = false) →
      ∃ t, exec (.ldVxK x) s = .next t ∧ t.wait = true ∧ t.opcode = s.opcode ∧
        t.pc = s.pc - 2 ∧ SameOutside [.pc, .status] s t)

/-- While no key is pressed an `Fx0A` cycle leaves `PC` where it was, sets `WAIT`, and a further
cycle reaches the same state again. -/
def Obligations.KeyWaitRepeatsWithNoNetChange : Prop :=
  ∀ (s : State) (x : Reg), s.fault = none → decodeWord s.wordAtPc = .ok (.ldVxK x) →
    (∀ k, s.keyDown k = false) →
    ∃ t, step s = .next t ∧ step t = .next t ∧ t.wait = true ∧ SameOutside [.status] s t

/-! ## The host's operations -/

/-- `SetKey(k, b)` is possible at any point and changes nothing but `KEY[k]`. -/
def Obligations.SetKeyChangesOneKey : Prop :=
  ∀ (m : Session) (k : Fin 16) (b : Bool), ∃ m', m.apply (.setKey k b) = .ok (m', .done) ∧
    m'.core.keyDown k = b ∧ (∀ q, q ≠ k → m'.core.keyDown q = m.core.keyDown q) ∧
    SameOutside [.keys] m.core m'.core

/-- `n` ticks take each timer down by `n`, stopping at 0, and change nothing else (that one call
steps both, at any point, is the spec's decision D19). -/
def Obligations.TicksCountBothTimersDownToZero : Prop :=
  ∀ (m : Session) (n : Nat), ∃ m', m.run (List.replicate n .tickTimers) = .ok m' ∧
    m'.core.dt.toNat = m.core.dt.toNat - n ∧ m'.core.st.toNat = m.core.st.toNat - n ∧
    SameOutside [.delay, .sound] m.core m'.core

/-- `LoadROM` before the first cycle: at most 3584 bytes are copied verbatim from 0x200 and nothing
else changes; more are turned away with nothing changed; after a cycle has begun it is refused
(that window is the spec's decision D21). -/
def Obligations.LoadRomCopiesOrTurnsAway : Prop :=
  ∀ (m : Session) (bytes : List Byte),
    (m.cyclesBegun = false → bytes.length ≤ 3584 →
      ∃ m', m.apply (.loadROM bytes) = .ok (m', .done) ∧
        (∀ k, k < bytes.length →
          m'.core.memRead (BitVec.ofNat 16 (0x200 + k)) = bytes.getD k 0) ∧
        (∀ a : Word, (maskAddr a < 0x200 ∨ 0x200 + bytes.length ≤ maskAddr a) →
          m'.core.memRead a = m.core.memRead a) ∧
        SameOutside [.memory] m.core m'.core) ∧
    (m.cyclesBegun = false → 3584 < bytes.length →
      m.apply (.loadROM bytes) = .ok (m, .romTooLarge)) ∧
    (m.cyclesBegun = true → m.apply (.loadROM bytes) = .error .loadAfterFirstCycle)

/-- `Reset()` gives the state after construction from any state, a faulted one included (it is the
spec's decision D21 that this is construction); the core keeps the random source it owns, and the
model's own draw counter goes on (log entries 2 and 22). -/
def Obligations.HostResetReconstructs : Prop :=
  ∀ m : Session, ∃ m', m.apply .reset = .ok (m', .done) ∧ m'.cyclesBegun = false ∧
    m'.core.fault = none ∧ m'.core.draws = m.core.draws ∧
    SameOutside [.draws] (State.construct m.core.source) m'.core

/-- The host's reads: the pixel grid, the sound timer, the tone bit, `WAIT` and `FAULT` as they stand,
with no side effect (`WAIT` and `FAULT` are the spec's decisions D11, D14). -/
def Obligations.HostReadsScreenAndTone : Prop :=
  ∀ m : Session, ∃ o, m.apply .observe = .ok (m, .observed o) ∧
    (∀ c r, o.screen.get c r = m.core.fb.get c r) ∧ o.soundTimer = m.core.st ∧
    (o.tone = true ↔ m.core.st.toNat ≠ 0) ∧ o.waiting = m.core.wait ∧ o.fault = m.core.fault

/-! ## What cannot be learned -/

/-- `OPCODE` and `WAIT` are only reported: no cycle depends on what they held before it. -/
def Obligations.OpcodeAndWaitAreNeverRead : Prop :=
  ∀ (s : State) (w : Word) (b : Bool), s.fault = none →
    step { s with opcode := w, wait := b } = step s

/-- No opcode can read the sound timer: with another value in it the same cycle gives the same
state but for the sound timer itself. -/
def Obligations.SoundTimerIsNeverRead : Prop :=
  ∀ (s t : State) (b : Byte), step s = .next t →
    ∃ u, step { s with st := b } = .next u ∧ { u with st := t.st } = t

/-- The upper four bits of `PC` and of the stack entries are invisible to the program: two states
that differ only there run in step (how `PC` is stored is the spec's decision D6). -/
def Obligations.PcHighBitsAreInvisible : Prop :=
  ∀ s t s' : State, SameUpToPcHighBits s t → step s = .next s' →
    ∃ t', step t = .next t' ∧ SameUpToPcHighBits s' t'

/-- Cores side by side share no state: an operation on one of them is that core's own operation and
leaves every other core as it was; each core keeps the random source it owns, and cores as
constructed own different ones (how a source is named is the model's choice, log entry 22). -/
def Obligations.CoresSideBySideShareNothing : Prop :=
  (∀ (n : Nat) (b b' : Cores n) (k : Fin n) (o : HostOp) (r : Report), b.apply k o = .ok (b', r) →
    (b.get k).apply o = .ok (b'.get k, r) ∧ (∀ j, j ≠ k → b'.get j = b.get j) ∧
    (∀ j, (b'.get j).core.source = (b.get j).core.source)) ∧
  (∀ (n : Nat) (j k : Fin n), j ≠ k →
    ((Cores.construct n).get j).core.source ≠ ((Cores.construct n).get k).core.source)
end

