-- ==== Sys2Proof/Laws/Decode.lean ====
section
/-!
SUPPORT. The fields of a word (spec/30_encoding.md R81) and the words of the formats (R83) as
numbers, so that a question about an encoding becomes one of arithmetic.
-/

namespace Sys2Proof

/-! ## The fields -/

theorem fieldT_val (w : Word) : (fieldT w).val = w.toNat / 4096 % 16 := by
  simp [fieldT, Nat.shiftRight_eq_div_pow]

theorem fieldX_val (w : Word) : (fieldX w).val = w.toNat / 256 % 16 := by
  simp [fieldX, Nat.shiftRight_eq_div_pow]

theorem fieldY_val (w : Word) : (fieldY w).val = w.toNat / 16 % 16 := by
  simp [fieldY, Nat.shiftRight_eq_div_pow]

theorem fieldN_val (w : Word) : (fieldN w).val = w.toNat % 16 := by
  simp [fieldN]

theorem fieldKK_toNat (w : Word) : (fieldKK w).toNat = w.toNat % 256 := by
  simp [fieldKK]

theorem fieldNNN_toNat (w : Word) : (fieldNNN w).toNat = w.toNat % 4096 := by
  simp [fieldNNN]

/-! ## The formats -/

/-- Appending is shifting the front up and adding the back. -/
theorem toNat_append_eq_add {m n : Nat} (a : BitVec m) (b : BitVec n) :
    (a ++ b).toNat = a.toNat * 2 ^ n + b.toNat := by
  rw [BitVec.toNat_append, Nat.shiftLeft_eq, Nat.mul_comm, Nat.two_pow_add_eq_or_of_lt b.isLt]

theorem toNat_wordNNN (t : BitVec 4) (nnn : Addr12) :
    (wordNNN t nnn).toNat = t.toNat * 4096 + nnn.toNat :=
  toNat_append_eq_add t nnn

theorem toNat_wordXKK (t : BitVec 4) (x : Reg) (kk : Byte) :
    (wordXKK t x kk).toNat = t.toNat * 4096 + x.val * 256 + kk.toNat := by
  have h1 := toNat_append_eq_add t (BitVec.ofFin x : BitVec 4)
  have h2 := toNat_append_eq_add (t ++ (BitVec.ofFin x : BitVec 4)) kk
  rw [h1] at h2
  have hx : (BitVec.ofFin x : BitVec 4).toNat = x.val := rfl
  rw [hx] at h2
  have h : (wordXKK t x kk).toNat = (t.toNat * 16 + x.val) * 256 + kk.toNat := h2
  clear h1 h2 hx
  rw [h, Nat.add_mul, Nat.mul_assoc]

theorem toNat_wordXYN (t : BitVec 4) (x y : Reg) (n : Fin 16) :
    (wordXYN t x y n).toNat = t.toNat * 4096 + x.val * 256 + y.val * 16 + n.val := by
  have h1 := toNat_append_eq_add t (BitVec.ofFin x : BitVec 4)
  have h2 := toNat_append_eq_add (t ++ (BitVec.ofFin x : BitVec 4)) (BitVec.ofFin y : BitVec 4)
  have h3 := toNat_append_eq_add
    (t ++ (BitVec.ofFin x : BitVec 4) ++ (BitVec.ofFin y : BitVec 4)) (BitVec.ofFin n : BitVec 4)
  rw [h2, h1] at h3
  have hx (z : Reg) : (BitVec.ofFin z : BitVec 4).toNat = z.val := rfl
  rw [hx, hx, hx] at h3
  have h : (wordXYN t x y n).toNat =
      ((t.toNat * 16 + x.val) * 16 + y.val) * 16 + n.val := h3
  clear h1 h2 h3 hx
  omega

theorem toNat_joinBytes (hi lo : Byte) : (joinBytes hi lo).toNat = hi.toNat * 256 + lo.toNat :=
  toNat_append_eq_add hi lo

/-- A word's two bytes, joined, are the word (R65). -/
theorem joinBytes_high_low (w : Word) : joinBytes (highByte w) (lowByte w) = w := by
  have := w.isLt
  apply BitVec.eq_of_toNat_eq
  rw [toNat_joinBytes]
  simp [highByte, lowByte, Nat.shiftRight_eq_div_pow]
  omega

/-! ## The fields of the formats -/

@[simp] theorem fieldT_wordNNN (t : BitVec 4) (nnn : Addr12) : (fieldT (wordNNN t nnn)).val = t.toNat := by
  have := t.isLt; have := nnn.isLt
  rw [fieldT_val, toNat_wordNNN]; omega

@[simp] theorem fieldNNN_wordNNN (t : BitVec 4) (nnn : Addr12) : fieldNNN (wordNNN t nnn) = nnn := by
  have := nnn.isLt
  apply BitVec.eq_of_toNat_eq
  rw [fieldNNN_toNat, toNat_wordNNN]; omega

@[simp] theorem fieldT_wordXKK (t : BitVec 4) (x : Reg) (kk : Byte) :
    (fieldT (wordXKK t x kk)).val = t.toNat := by
  have := t.isLt; have := x.isLt; have := kk.isLt
  rw [fieldT_val, toNat_wordXKK]; omega

@[simp] theorem fieldX_wordXKK (t : BitVec 4) (x : Reg) (kk : Byte) : fieldX (wordXKK t x kk) = x := by
  have := x.isLt; have := kk.isLt
  apply Fin.ext
  rw [fieldX_val, toNat_wordXKK]; omega

@[simp] theorem fieldKK_wordXKK (t : BitVec 4) (x : Reg) (kk : Byte) : fieldKK (wordXKK t x kk) = kk := by
  have := kk.isLt
  apply BitVec.eq_of_toNat_eq
  rw [fieldKK_toNat, toNat_wordXKK]; omega

@[simp] theorem fieldT_wordXYN (t : BitVec 4) (x y : Reg) (n : Fin 16) :
    (fieldT (wordXYN t x y n)).val = t.toNat := by
  have := t.isLt; have := x.isLt; have := y.isLt; have := n.isLt
  rw [fieldT_val, toNat_wordXYN]; omega

@[simp] theorem fieldX_wordXYN (t : BitVec 4) (x y : Reg) (n : Fin 16) : fieldX (wordXYN t x y n) = x := by
  have := x.isLt; have := y.isLt; have := n.isLt
  apply Fin.ext
  rw [fieldX_val, toNat_wordXYN]; omega

@[simp] theorem fieldY_wordXYN (t : BitVec 4) (x y : Reg) (n : Fin 16) : fieldY (wordXYN t x y n) = y := by
  have := y.isLt; have := n.isLt
  apply Fin.ext
  rw [fieldY_val, toNat_wordXYN]; omega

@[simp] theorem fieldN_wordXYN (t : BitVec 4) (x y : Reg) (n : Fin 16) : fieldN (wordXYN t x y n) = n := by
  have := n.isLt
  apply Fin.ext
  rw [fieldN_val, toNat_wordXYN]; omega

end Sys2Proof
end

