-- ==== Sys2Proof/Laws/State.lean ====
section
/-!
SUPPORT. One lemma per field of State per named update, each true by definition, so that no later
proof unfolds a record update.
-/

namespace Sys2Proof.Machine

@[simp] theorem State.writeV_mem (s : State) (r : Reg) (b : Byte) : (s.writeV r b).mem = s.mem := rfl
@[simp] theorem State.writeV_v (s : State) (r : Reg) (b : Byte) : (s.writeV r b).v = s.v.set r.val b := rfl
@[simp] theorem State.writeV_i (s : State) (r : Reg) (b : Byte) : (s.writeV r b).i = s.i := rfl
@[simp] theorem State.writeV_pc (s : State) (r : Reg) (b : Byte) : (s.writeV r b).pc = s.pc := rfl
@[simp] theorem State.writeV_stack (s : State) (r : Reg) (b : Byte) : (s.writeV r b).stack = s.stack := rfl
@[simp] theorem State.writeV_sp (s : State) (r : Reg) (b : Byte) : (s.writeV r b).sp = s.sp := rfl
@[simp] theorem State.writeV_dt (s : State) (r : Reg) (b : Byte) : (s.writeV r b).dt = s.dt := rfl
@[simp] theorem State.writeV_st (s : State) (r : Reg) (b : Byte) : (s.writeV r b).st = s.st := rfl
@[simp] theorem State.writeV_fb (s : State) (r : Reg) (b : Byte) : (s.writeV r b).fb = s.fb := rfl
@[simp] theorem State.writeV_key (s : State) (r : Reg) (b : Byte) : (s.writeV r b).key = s.key := rfl
@[simp] theorem State.writeV_opcode (s : State) (r : Reg) (b : Byte) : (s.writeV r b).opcode = s.opcode := rfl
@[simp] theorem State.writeV_wait (s : State) (r : Reg) (b : Byte) : (s.writeV r b).wait = s.wait := rfl
@[simp] theorem State.writeV_fault (s : State) (r : Reg) (b : Byte) : (s.writeV r b).fault = s.fault := rfl
@[simp] theorem State.writeV_draws (s : State) (r : Reg) (b : Byte) : (s.writeV r b).draws = s.draws := rfl
@[simp] theorem State.writeV_source (s : State) (r : Reg) (b : Byte) : (s.writeV r b).source = s.source := rfl

@[simp] theorem State.setI_mem (s : State) (a : Word) : (s.setI a).mem = s.mem := rfl
@[simp] theorem State.setI_v (s : State) (a : Word) : (s.setI a).v = s.v := rfl
@[simp] theorem State.setI_i (s : State) (a : Word) : (s.setI a).i = a := rfl
@[simp] theorem State.setI_pc (s : State) (a : Word) : (s.setI a).pc = s.pc := rfl
@[simp] theorem State.setI_stack (s : State) (a : Word) : (s.setI a).stack = s.stack := rfl
@[simp] theorem State.setI_sp (s : State) (a : Word) : (s.setI a).sp = s.sp := rfl
@[simp] theorem State.setI_dt (s : State) (a : Word) : (s.setI a).dt = s.dt := rfl
@[simp] theorem State.setI_st (s : State) (a : Word) : (s.setI a).st = s.st := rfl
@[simp] theorem State.setI_fb (s : State) (a : Word) : (s.setI a).fb = s.fb := rfl
@[simp] theorem State.setI_key (s : State) (a : Word) : (s.setI a).key = s.key := rfl
@[simp] theorem State.setI_opcode (s : State) (a : Word) : (s.setI a).opcode = s.opcode := rfl
@[simp] theorem State.setI_wait (s : State) (a : Word) : (s.setI a).wait = s.wait := rfl
@[simp] theorem State.setI_fault (s : State) (a : Word) : (s.setI a).fault = s.fault := rfl
@[simp] theorem State.setI_draws (s : State) (a : Word) : (s.setI a).draws = s.draws := rfl
@[simp] theorem State.setI_source (s : State) (a : Word) : (s.setI a).source = s.source := rfl

@[simp] theorem State.setPc_mem (s : State) (a : Word) : (s.setPc a).mem = s.mem := rfl
@[simp] theorem State.setPc_v (s : State) (a : Word) : (s.setPc a).v = s.v := rfl
@[simp] theorem State.setPc_i (s : State) (a : Word) : (s.setPc a).i = s.i := rfl
@[simp] theorem State.setPc_pc (s : State) (a : Word) : (s.setPc a).pc = a := rfl
@[simp] theorem State.setPc_stack (s : State) (a : Word) : (s.setPc a).stack = s.stack := rfl
@[simp] theorem State.setPc_sp (s : State) (a : Word) : (s.setPc a).sp = s.sp := rfl
@[simp] theorem State.setPc_dt (s : State) (a : Word) : (s.setPc a).dt = s.dt := rfl
@[simp] theorem State.setPc_st (s : State) (a : Word) : (s.setPc a).st = s.st := rfl
@[simp] theorem State.setPc_fb (s : State) (a : Word) : (s.setPc a).fb = s.fb := rfl
@[simp] theorem State.setPc_key (s : State) (a : Word) : (s.setPc a).key = s.key := rfl
@[simp] theorem State.setPc_opcode (s : State) (a : Word) : (s.setPc a).opcode = s.opcode := rfl
@[simp] theorem State.setPc_wait (s : State) (a : Word) : (s.setPc a).wait = s.wait := rfl
@[simp] theorem State.setPc_fault (s : State) (a : Word) : (s.setPc a).fault = s.fault := rfl
@[simp] theorem State.setPc_draws (s : State) (a : Word) : (s.setPc a).draws = s.draws := rfl
@[simp] theorem State.setPc_source (s : State) (a : Word) : (s.setPc a).source = s.source := rfl

@[simp] theorem State.setDt_mem (s : State) (b : Byte) : (s.setDt b).mem = s.mem := rfl
@[simp] theorem State.setDt_v (s : State) (b : Byte) : (s.setDt b).v = s.v := rfl
@[simp] theorem State.setDt_i (s : State) (b : Byte) : (s.setDt b).i = s.i := rfl
@[simp] theorem State.setDt_pc (s : State) (b : Byte) : (s.setDt b).pc = s.pc := rfl
@[simp] theorem State.setDt_stack (s : State) (b : Byte) : (s.setDt b).stack = s.stack := rfl
@[simp] theorem State.setDt_sp (s : State) (b : Byte) : (s.setDt b).sp = s.sp := rfl
@[simp] theorem State.setDt_dt (s : State) (b : Byte) : (s.setDt b).dt = b := rfl
@[simp] theorem State.setDt_st (s : State) (b : Byte) : (s.setDt b).st = s.st := rfl
@[simp] theorem State.setDt_fb (s : State) (b : Byte) : (s.setDt b).fb = s.fb := rfl
@[simp] theorem State.setDt_key (s : State) (b : Byte) : (s.setDt b).key = s.key := rfl
@[simp] theorem State.setDt_opcode (s : State) (b : Byte) : (s.setDt b).opcode = s.opcode := rfl
@[simp] theorem State.setDt_wait (s : State) (b : Byte) : (s.setDt b).wait = s.wait := rfl
@[simp] theorem State.setDt_fault (s : State) (b : Byte) : (s.setDt b).fault = s.fault := rfl
@[simp] theorem State.setDt_draws (s : State) (b : Byte) : (s.setDt b).draws = s.draws := rfl
@[simp] theorem State.setDt_source (s : State) (b : Byte) : (s.setDt b).source = s.source := rfl

@[simp] theorem State.setSt_mem (s : State) (b : Byte) : (s.setSt b).mem = s.mem := rfl
@[simp] theorem State.setSt_v (s : State) (b : Byte) : (s.setSt b).v = s.v := rfl
@[simp] theorem State.setSt_i (s : State) (b : Byte) : (s.setSt b).i = s.i := rfl
@[simp] theorem State.setSt_pc (s : State) (b : Byte) : (s.setSt b).pc = s.pc := rfl
@[simp] theorem State.setSt_stack (s : State) (b : Byte) : (s.setSt b).stack = s.stack := rfl
@[simp] theorem State.setSt_sp (s : State) (b : Byte) : (s.setSt b).sp = s.sp := rfl
@[simp] theorem State.setSt_dt (s : State) (b : Byte) : (s.setSt b).dt = s.dt := rfl
@[simp] theorem State.setSt_st (s : State) (b : Byte) : (s.setSt b).st = b := rfl
@[simp] theorem State.setSt_fb (s : State) (b : Byte) : (s.setSt b).fb = s.fb := rfl
@[simp] theorem State.setSt_key (s : State) (b : Byte) : (s.setSt b).key = s.key := rfl
@[simp] theorem State.setSt_opcode (s : State) (b : Byte) : (s.setSt b).opcode = s.opcode := rfl
@[simp] theorem State.setSt_wait (s : State) (b : Byte) : (s.setSt b).wait = s.wait := rfl
@[simp] theorem State.setSt_fault (s : State) (b : Byte) : (s.setSt b).fault = s.fault := rfl
@[simp] theorem State.setSt_draws (s : State) (b : Byte) : (s.setSt b).draws = s.draws := rfl
@[simp] theorem State.setSt_source (s : State) (b : Byte) : (s.setSt b).source = s.source := rfl

@[simp] theorem State.setWait_mem (s : State) (b : Bool) : (s.setWait b).mem = s.mem := rfl
@[simp] theorem State.setWait_v (s : State) (b : Bool) : (s.setWait b).v = s.v := rfl
@[simp] theorem State.setWait_i (s : State) (b : Bool) : (s.setWait b).i = s.i := rfl
@[simp] theorem State.setWait_pc (s : State) (b : Bool) : (s.setWait b).pc = s.pc := rfl
@[simp] theorem State.setWait_stack (s : State) (b : Bool) : (s.setWait b).stack = s.stack := rfl
@[simp] theorem State.setWait_sp (s : State) (b : Bool) : (s.setWait b).sp = s.sp := rfl
@[simp] theorem State.setWait_dt (s : State) (b : Bool) : (s.setWait b).dt = s.dt := rfl
@[simp] theorem State.setWait_st (s : State) (b : Bool) : (s.setWait b).st = s.st := rfl
@[simp] theorem State.setWait_fb (s : State) (b : Bool) : (s.setWait b).fb = s.fb := rfl
@[simp] theorem State.setWait_key (s : State) (b : Bool) : (s.setWait b).key = s.key := rfl
@[simp] theorem State.setWait_opcode (s : State) (b : Bool) : (s.setWait b).opcode = s.opcode := rfl
@[simp] theorem State.setWait_wait (s : State) (b : Bool) : (s.setWait b).wait = b := rfl
@[simp] theorem State.setWait_fault (s : State) (b : Bool) : (s.setWait b).fault = s.fault := rfl
@[simp] theorem State.setWait_draws (s : State) (b : Bool) : (s.setWait b).draws = s.draws := rfl
@[simp] theorem State.setWait_source (s : State) (b : Bool) : (s.setWait b).source = s.source := rfl

@[simp] theorem State.setOpcode_mem (s : State) (w : Word) : (s.setOpcode w).mem = s.mem := rfl
@[simp] theorem State.setOpcode_v (s : State) (w : Word) : (s.setOpcode w).v = s.v := rfl
@[simp] theorem State.setOpcode_i (s : State) (w : Word) : (s.setOpcode w).i = s.i := rfl
@[simp] theorem State.setOpcode_pc (s : State) (w : Word) : (s.setOpcode w).pc = s.pc := rfl
@[simp] theorem State.setOpcode_stack (s : State) (w : Word) : (s.setOpcode w).stack = s.stack := rfl
@[simp] theorem State.setOpcode_sp (s : State) (w : Word) : (s.setOpcode w).sp = s.sp := rfl
@[simp] theorem State.setOpcode_dt (s : State) (w : Word) : (s.setOpcode w).dt = s.dt := rfl
@[simp] theorem State.setOpcode_st (s : State) (w : Word) : (s.setOpcode w).st = s.st := rfl
@[simp] theorem State.setOpcode_fb (s : State) (w : Word) : (s.setOpcode w).fb = s.fb := rfl
@[simp] theorem State.setOpcode_key (s : State) (w : Word) : (s.setOpcode w).key = s.key := rfl
@[simp] theorem State.setOpcode_opcode (s : State) (w : Word) : (s.setOpcode w).opcode = w := rfl
@[simp] theorem State.setOpcode_wait (s : State) (w : Word) : (s.setOpcode w).wait = s.wait := rfl
@[simp] theorem State.setOpcode_fault (s : State) (w : Word) : (s.setOpcode w).fault = s.fault := rfl
@[simp] theorem State.setOpcode_draws (s : State) (w : Word) : (s.setOpcode w).draws = s.draws := rfl
@[simp] theorem State.setOpcode_source (s : State) (w : Word) : (s.setOpcode w).source = s.source := rfl

@[simp] theorem State.setFb_mem (s : State) (f : Framebuffer) : (s.setFb f).mem = s.mem := rfl
@[simp] theorem State.setFb_v (s : State) (f : Framebuffer) : (s.setFb f).v = s.v := rfl
@[simp] theorem State.setFb_i (s : State) (f : Framebuffer) : (s.setFb f).i = s.i := rfl
@[simp] theorem State.setFb_pc (s : State) (f : Framebuffer) : (s.setFb f).pc = s.pc := rfl
@[simp] theorem State.setFb_stack (s : State) (f : Framebuffer) : (s.setFb f).stack = s.stack := rfl
@[simp] theorem State.setFb_sp (s : State) (f : Framebuffer) : (s.setFb f).sp = s.sp := rfl
@[simp] theorem State.setFb_dt (s : State) (f : Framebuffer) : (s.setFb f).dt = s.dt := rfl
@[simp] theorem State.setFb_st (s : State) (f : Framebuffer) : (s.setFb f).st = s.st := rfl
@[simp] theorem State.setFb_fb (s : State) (f : Framebuffer) : (s.setFb f).fb = f := rfl
@[simp] theorem State.setFb_key (s : State) (f : Framebuffer) : (s.setFb f).key = s.key := rfl
@[simp] theorem State.setFb_opcode (s : State) (f : Framebuffer) : (s.setFb f).opcode = s.opcode := rfl
@[simp] theorem State.setFb_wait (s : State) (f : Framebuffer) : (s.setFb f).wait = s.wait := rfl
@[simp] theorem State.setFb_fault (s : State) (f : Framebuffer) : (s.setFb f).fault = s.fault := rfl
@[simp] theorem State.setFb_draws (s : State) (f : Framebuffer) : (s.setFb f).draws = s.draws := rfl
@[simp] theorem State.setFb_source (s : State) (f : Framebuffer) : (s.setFb f).source = s.source := rfl

@[simp] theorem State.setKey_mem (s : State) (k : Fin 16) (b : Bool) : (s.setKey k b).mem = s.mem := rfl
@[simp] theorem State.setKey_v (s : State) (k : Fin 16) (b : Bool) : (s.setKey k b).v = s.v := rfl
@[simp] theorem State.setKey_i (s : State) (k : Fin 16) (b : Bool) : (s.setKey k b).i = s.i := rfl
@[simp] theorem State.setKey_pc (s : State) (k : Fin 16) (b : Bool) : (s.setKey k b).pc = s.pc := rfl
@[simp] theorem State.setKey_stack (s : State) (k : Fin 16) (b : Bool) : (s.setKey k b).stack = s.stack := rfl
@[simp] theorem State.setKey_sp (s : State) (k : Fin 16) (b : Bool) : (s.setKey k b).sp = s.sp := rfl
@[simp] theorem State.setKey_dt (s : State) (k : Fin 16) (b : Bool) : (s.setKey k b).dt = s.dt := rfl
@[simp] theorem State.setKey_st (s : State) (k : Fin 16) (b : Bool) : (s.setKey k b).st = s.st := rfl
@[simp] theorem State.setKey_fb (s : State) (k : Fin 16) (b : Bool) : (s.setKey k b).fb = s.fb := rfl
@[simp] theorem State.setKey_key (s : State) (k : Fin 16) (b : Bool) : (s.setKey k b).key = s.key.set k.val b := rfl
@[simp] theorem State.setKey_opcode (s : State) (k : Fin 16) (b : Bool) : (s.setKey k b).opcode = s.opcode := rfl
@[simp] theorem State.setKey_wait (s : State) (k : Fin 16) (b : Bool) : (s.setKey k b).wait = s.wait := rfl
@[simp] theorem State.setKey_fault (s : State) (k : Fin 16) (b : Bool) : (s.setKey k b).fault = s.fault := rfl
@[simp] theorem State.setKey_draws (s : State) (k : Fin 16) (b : Bool) : (s.setKey k b).draws = s.draws := rfl
@[simp] theorem State.setKey_source (s : State) (k : Fin 16) (b : Bool) : (s.setKey k b).source = s.source := rfl

@[simp] theorem State.push_mem (s : State) (k : Fin 16) (a : Word) : (s.push k a).mem = s.mem := rfl
@[simp] theorem State.push_v (s : State) (k : Fin 16) (a : Word) : (s.push k a).v = s.v := rfl
@[simp] theorem State.push_i (s : State) (k : Fin 16) (a : Word) : (s.push k a).i = s.i := rfl
@[simp] theorem State.push_pc (s : State) (k : Fin 16) (a : Word) : (s.push k a).pc = s.pc := rfl
@[simp] theorem State.push_stack (s : State) (k : Fin 16) (a : Word) : (s.push k a).stack = s.stack.set k.val a := rfl
@[simp] theorem State.push_sp (s : State) (k : Fin 16) (a : Word) : (s.push k a).sp = k.succ := rfl
@[simp] theorem State.push_dt (s : State) (k : Fin 16) (a : Word) : (s.push k a).dt = s.dt := rfl
@[simp] theorem State.push_st (s : State) (k : Fin 16) (a : Word) : (s.push k a).st = s.st := rfl
@[simp] theorem State.push_fb (s : State) (k : Fin 16) (a : Word) : (s.push k a).fb = s.fb := rfl
@[simp] theorem State.push_key (s : State) (k : Fin 16) (a : Word) : (s.push k a).key = s.key := rfl
@[simp] theorem State.push_opcode (s : State) (k : Fin 16) (a : Word) : (s.push k a).opcode = s.opcode := rfl
@[simp] theorem State.push_wait (s : State) (k : Fin 16) (a : Word) : (s.push k a).wait = s.wait := rfl
@[simp] theorem State.push_fault (s : State) (k : Fin 16) (a : Word) : (s.push k a).fault = s.fault := rfl
@[simp] theorem State.push_draws (s : State) (k : Fin 16) (a : Word) : (s.push k a).draws = s.draws := rfl
@[simp] theorem State.push_source (s : State) (k : Fin 16) (a : Word) : (s.push k a).source = s.source := rfl

@[simp] theorem State.pop_mem (s : State) (k : Fin 16) : (s.pop k).mem = s.mem := rfl
@[simp] theorem State.pop_v (s : State) (k : Fin 16) : (s.pop k).v = s.v := rfl
@[simp] theorem State.pop_i (s : State) (k : Fin 16) : (s.pop k).i = s.i := rfl
@[simp] theorem State.pop_pc (s : State) (k : Fin 16) : (s.pop k).pc = s.pc := rfl
@[simp] theorem State.pop_stack (s : State) (k : Fin 16) : (s.pop k).stack = s.stack := rfl
@[simp] theorem State.pop_sp (s : State) (k : Fin 16) : (s.pop k).sp = k.castSucc := rfl
@[simp] theorem State.pop_dt (s : State) (k : Fin 16) : (s.pop k).dt = s.dt := rfl
@[simp] theorem State.pop_st (s : State) (k : Fin 16) : (s.pop k).st = s.st := rfl
@[simp] theorem State.pop_fb (s : State) (k : Fin 16) : (s.pop k).fb = s.fb := rfl
@[simp] theorem State.pop_key (s : State) (k : Fin 16) : (s.pop k).key = s.key := rfl
@[simp] theorem State.pop_opcode (s : State) (k : Fin 16) : (s.pop k).opcode = s.opcode := rfl
@[simp] theorem State.pop_wait (s : State) (k : Fin 16) : (s.pop k).wait = s.wait := rfl
@[simp] theorem State.pop_fault (s : State) (k : Fin 16) : (s.pop k).fault = s.fault := rfl
@[simp] theorem State.pop_draws (s : State) (k : Fin 16) : (s.pop k).draws = s.draws := rfl
@[simp] theorem State.pop_source (s : State) (k : Fin 16) : (s.pop k).source = s.source := rfl

@[simp] theorem State.draw_mem (s : State) : (s.draw).mem = s.mem := rfl
@[simp] theorem State.draw_v (s : State) : (s.draw).v = s.v := rfl
@[simp] theorem State.draw_i (s : State) : (s.draw).i = s.i := rfl
@[simp] theorem State.draw_pc (s : State) : (s.draw).pc = s.pc := rfl
@[simp] theorem State.draw_stack (s : State) : (s.draw).stack = s.stack := rfl
@[simp] theorem State.draw_sp (s : State) : (s.draw).sp = s.sp := rfl
@[simp] theorem State.draw_dt (s : State) : (s.draw).dt = s.dt := rfl
@[simp] theorem State.draw_st (s : State) : (s.draw).st = s.st := rfl
@[simp] theorem State.draw_fb (s : State) : (s.draw).fb = s.fb := rfl
@[simp] theorem State.draw_key (s : State) : (s.draw).key = s.key := rfl
@[simp] theorem State.draw_opcode (s : State) : (s.draw).opcode = s.opcode := rfl
@[simp] theorem State.draw_wait (s : State) : (s.draw).wait = s.wait := rfl
@[simp] theorem State.draw_fault (s : State) : (s.draw).fault = s.fault := rfl
@[simp] theorem State.draw_draws (s : State) : (s.draw).draws = s.draws + 1 := rfl
@[simp] theorem State.draw_source (s : State) : (s.draw).source = s.source := rfl

@[simp] theorem State.memWrite_mem (s : State) (a : Word) (b : Byte) : (s.memWrite a b).mem = s.mem.write (maskAddr a) b := rfl
@[simp] theorem State.memWrite_v (s : State) (a : Word) (b : Byte) : (s.memWrite a b).v = s.v := rfl
@[simp] theorem State.memWrite_i (s : State) (a : Word) (b : Byte) : (s.memWrite a b).i = s.i := rfl
@[simp] theorem State.memWrite_pc (s : State) (a : Word) (b : Byte) : (s.memWrite a b).pc = s.pc := rfl
@[simp] theorem State.memWrite_stack (s : State) (a : Word) (b : Byte) : (s.memWrite a b).stack = s.stack := rfl
@[simp] theorem State.memWrite_sp (s : State) (a : Word) (b : Byte) : (s.memWrite a b).sp = s.sp := rfl
@[simp] theorem State.memWrite_dt (s : State) (a : Word) (b : Byte) : (s.memWrite a b).dt = s.dt := rfl
@[simp] theorem State.memWrite_st (s : State) (a : Word) (b : Byte) : (s.memWrite a b).st = s.st := rfl
@[simp] theorem State.memWrite_fb (s : State) (a : Word) (b : Byte) : (s.memWrite a b).fb = s.fb := rfl
@[simp] theorem State.memWrite_key (s : State) (a : Word) (b : Byte) : (s.memWrite a b).key = s.key := rfl
@[simp] theorem State.memWrite_opcode (s : State) (a : Word) (b : Byte) : (s.memWrite a b).opcode = s.opcode := rfl
@[simp] theorem State.memWrite_wait (s : State) (a : Word) (b : Byte) : (s.memWrite a b).wait = s.wait := rfl
@[simp] theorem State.memWrite_fault (s : State) (a : Word) (b : Byte) : (s.memWrite a b).fault = s.fault := rfl
@[simp] theorem State.memWrite_draws (s : State) (a : Word) (b : Byte) : (s.memWrite a b).draws = s.draws := rfl
@[simp] theorem State.memWrite_source (s : State) (a : Word) (b : Byte) : (s.memWrite a b).source = s.source := rfl

@[simp] theorem State.raise_mem (s : State) (f : Fault) : (s.raise f).mem = s.mem := rfl
@[simp] theorem State.raise_v (s : State) (f : Fault) : (s.raise f).v = s.v := rfl
@[simp] theorem State.raise_i (s : State) (f : Fault) : (s.raise f).i = s.i := rfl
@[simp] theorem State.raise_pc (s : State) (f : Fault) : (s.raise f).pc = s.pc := rfl
@[simp] theorem State.raise_stack (s : State) (f : Fault) : (s.raise f).stack = s.stack := rfl
@[simp] theorem State.raise_sp (s : State) (f : Fault) : (s.raise f).sp = s.sp := rfl
@[simp] theorem State.raise_dt (s : State) (f : Fault) : (s.raise f).dt = s.dt := rfl
@[simp] theorem State.raise_st (s : State) (f : Fault) : (s.raise f).st = s.st := rfl
@[simp] theorem State.raise_fb (s : State) (f : Fault) : (s.raise f).fb = s.fb := rfl
@[simp] theorem State.raise_key (s : State) (f : Fault) : (s.raise f).key = s.key := rfl
@[simp] theorem State.raise_opcode (s : State) (f : Fault) : (s.raise f).opcode = s.opcode := rfl
@[simp] theorem State.raise_wait (s : State) (f : Fault) : (s.raise f).wait = s.wait := rfl
@[simp] theorem State.raise_fault (s : State) (f : Fault) : (s.raise f).fault = some f := rfl
@[simp] theorem State.raise_draws (s : State) (f : Fault) : (s.raise f).draws = s.draws := rfl
@[simp] theorem State.raise_source (s : State) (f : Fault) : (s.raise f).source = s.source := rfl

@[simp] theorem fetch_mem (s : State) : (fetch s).mem = s.mem := rfl
@[simp] theorem fetch_v (s : State) : (fetch s).v = s.v := rfl
@[simp] theorem fetch_i (s : State) : (fetch s).i = s.i := rfl
@[simp] theorem fetch_pc (s : State) : (fetch s).pc = s.pc + 2 := rfl
@[simp] theorem fetch_stack (s : State) : (fetch s).stack = s.stack := rfl
@[simp] theorem fetch_sp (s : State) : (fetch s).sp = s.sp := rfl
@[simp] theorem fetch_dt (s : State) : (fetch s).dt = s.dt := rfl
@[simp] theorem fetch_st (s : State) : (fetch s).st = s.st := rfl
@[simp] theorem fetch_fb (s : State) : (fetch s).fb = s.fb := rfl
@[simp] theorem fetch_key (s : State) : (fetch s).key = s.key := rfl
@[simp] theorem fetch_opcode (s : State) : (fetch s).opcode = s.wordAtPc := rfl
@[simp] theorem fetch_wait (s : State) : (fetch s).wait = false := rfl
@[simp] theorem fetch_fault (s : State) : (fetch s).fault = s.fault := rfl
@[simp] theorem fetch_draws (s : State) : (fetch s).draws = s.draws := rfl
@[simp] theorem fetch_source (s : State) : (fetch s).source = s.source := rfl

@[simp] theorem State.construct_mem (n : Nat) : (State.construct n).mem = State.reset.mem := rfl
@[simp] theorem State.construct_v (n : Nat) : (State.construct n).v = State.reset.v := rfl
@[simp] theorem State.construct_i (n : Nat) : (State.construct n).i = State.reset.i := rfl
@[simp] theorem State.construct_pc (n : Nat) : (State.construct n).pc = State.reset.pc := rfl
@[simp] theorem State.construct_stack (n : Nat) : (State.construct n).stack = State.reset.stack := rfl
@[simp] theorem State.construct_sp (n : Nat) : (State.construct n).sp = State.reset.sp := rfl
@[simp] theorem State.construct_dt (n : Nat) : (State.construct n).dt = State.reset.dt := rfl
@[simp] theorem State.construct_st (n : Nat) : (State.construct n).st = State.reset.st := rfl
@[simp] theorem State.construct_fb (n : Nat) : (State.construct n).fb = State.reset.fb := rfl
@[simp] theorem State.construct_key (n : Nat) : (State.construct n).key = State.reset.key := rfl
@[simp] theorem State.construct_opcode (n : Nat) : (State.construct n).opcode = State.reset.opcode := rfl
@[simp] theorem State.construct_wait (n : Nat) : (State.construct n).wait = State.reset.wait := rfl
@[simp] theorem State.construct_fault (n : Nat) : (State.construct n).fault = State.reset.fault := rfl
@[simp] theorem State.construct_draws (n : Nat) : (State.construct n).draws = State.reset.draws := rfl
@[simp] theorem State.construct_source (n : Nat) : (State.construct n).source = n := rfl

@[simp] theorem State.hostReset_mem (s : State) : s.hostReset.mem = State.reset.mem := rfl
@[simp] theorem State.hostReset_v (s : State) : s.hostReset.v = State.reset.v := rfl
@[simp] theorem State.hostReset_i (s : State) : s.hostReset.i = State.reset.i := rfl
@[simp] theorem State.hostReset_pc (s : State) : s.hostReset.pc = State.reset.pc := rfl
@[simp] theorem State.hostReset_stack (s : State) : s.hostReset.stack = State.reset.stack := rfl
@[simp] theorem State.hostReset_sp (s : State) : s.hostReset.sp = State.reset.sp := rfl
@[simp] theorem State.hostReset_dt (s : State) : s.hostReset.dt = State.reset.dt := rfl
@[simp] theorem State.hostReset_st (s : State) : s.hostReset.st = State.reset.st := rfl
@[simp] theorem State.hostReset_fb (s : State) : s.hostReset.fb = State.reset.fb := rfl
@[simp] theorem State.hostReset_key (s : State) : s.hostReset.key = State.reset.key := rfl
@[simp] theorem State.hostReset_opcode (s : State) : s.hostReset.opcode = State.reset.opcode := rfl
@[simp] theorem State.hostReset_wait (s : State) : s.hostReset.wait = State.reset.wait := rfl
@[simp] theorem State.hostReset_fault (s : State) : s.hostReset.fault = State.reset.fault := rfl
@[simp] theorem State.hostReset_draws (s : State) : s.hostReset.draws = s.draws := rfl
@[simp] theorem State.hostReset_source (s : State) : s.hostReset.source = s.source := rfl

end Sys2Proof.Machine
end

