-- ==== Sys2Proof/Laws/Memory.lean ====
section
/-!
SUPPORT. The laws of the one memory: a read after a write, the canonical form kept by every
operation, and the same through the masked reads and writes of the state.
-/

namespace Sys2Proof.Machine

theorem maskAddr_lt (a : Word) : maskAddr a < 4096 := by
  have h : (a &&& 0x0FFF).toNat ≤ (0x0FFF : Word).toNat := by
    rw [BitVec.toNat_and]; exact Nat.and_le_right
  simpa [maskAddr] using Nat.lt_succ_of_le h

/-- Masking is reduction modulo 4096 (R61). -/
theorem maskAddr_eq_mod (a : Word) : maskAddr a = a.toNat % 4096 := by
  simpa [maskAddr] using Nat.and_two_pow_sub_one_eq_mod a.toNat 12

@[simp] theorem Memory.read_nil (a : Nat) : Memory.read [] a = resetByte a := rfl

theorem Memory.read_erase (m : Memory) (a b : Nat) :
    (m.erase a).read b = if b = a then resetByte b else m.read b := by
  induction m with
  | nil => simp [Memory.erase]
  | cons c m ih =>
    obtain ⟨d, w⟩ := c
    by_cases hd : d = a
    · subst hd
      have : Memory.erase ((d, w) :: m) d = Memory.erase m d := by simp [Memory.erase]
      rw [this, ih]
      by_cases hb : b = d
      · simp [hb]
      · simp [hb, Memory.read]
    · have : Memory.erase ((d, w) :: m) a = (d, w) :: Memory.erase m a := by
        simp [Memory.erase, hd]
      rw [this, Memory.read, Memory.read, ih]
      by_cases hb : b = d
      · subst hb; simp [hd]
      · simp [hb]

theorem Memory.read_insert (m : Memory) (a b : Nat) (u : Byte) (h : ∀ c ∈ m, c.1 ≠ a) :
    (Memory.insert m a u).read b = if b = a then u else m.read b := by
  induction m with
  | nil => by_cases hb : b = a <;> simp [Memory.insert, Memory.read, hb]
  | cons c m ih =>
    obtain ⟨d, w⟩ := c
    have hd : d ≠ a := h (d, w) (by simp)
    have ih' := ih fun c hc => h c (by simp [hc])
    unfold Memory.insert
    split
    · simp [Memory.read]
    · rw [Memory.read, Memory.read, ih']
      by_cases hb : b = d
      · subst hb; simp [hd]
      · simp [hb]

theorem Memory.erase_ne (m : Memory) (a : Nat) : ∀ c ∈ m.erase a, c.1 ≠ a := by
  intro c hc
  simpa using (List.mem_filter.mp hc).2

/-- Reading after a write: the byte written there, the byte as before elsewhere. -/
theorem Memory.read_write (m : Memory) (a b : Nat) (u : Byte) :
    (m.write a u).read b = if b = a then u else m.read b := by
  unfold Memory.write
  split
  · rename_i h
    rw [Memory.read_erase]
    by_cases hb : b = a
    · subst hb; simp [h]
    · simp [hb]
  · rw [Memory.read_insert _ _ _ _ (Memory.erase_ne m a), Memory.read_erase]
    by_cases hb : b = a <;> simp [hb]

theorem Memory.wf_nil : Memory.wf [] := by simp [Memory.wf]

theorem Memory.wf_erase {m : Memory} (h : m.wf) (a : Nat) : (m.erase a).wf :=
  ⟨h.1.sublist List.filter_sublist, fun c hc => h.2 c (List.mem_of_mem_filter hc)⟩

theorem Memory.mem_insert {m : Memory} {a : Nat} {u : Byte} {c : Host.Cell} :
    c ∈ Memory.insert m a u ↔ c = (a, u) ∨ c ∈ m := by
  induction m with
  | nil => simp [Memory.insert]
  | cons d m ih =>
    obtain ⟨d, w⟩ := d
    unfold Memory.insert
    split
    · simp
    · simp [ih]; tauto

theorem Memory.wf_insert {m : Memory} (h : m.wf) {a : Nat} {u : Byte} (ha : a < Config.memSize)
    (hu : u ≠ resetByte a) (hne : ∀ c ∈ m, c.1 ≠ a) : (Memory.insert m a u).wf := by
  refine ⟨?_, fun c hc => ?_⟩
  · have hp := h.1
    clear h
    induction m with
    | nil => simp [Memory.insert]
    | cons d m ih =>
      obtain ⟨d, w⟩ := d
      have hd : d ≠ a := hne (d, w) (by simp)
      rw [List.pairwise_cons] at hp
      unfold Memory.insert
      split
      · rename_i hlt
        refine List.pairwise_cons.mpr ⟨fun c hc => ?_, List.pairwise_cons.mpr hp⟩
        rcases List.mem_cons.mp hc with rfl | hc
        · exact hlt
        · exact Nat.lt_trans hlt (hp.1 c hc)
      · rename_i hlt
        refine List.pairwise_cons.mpr
          ⟨fun c hc => ?_, ih (fun c hc => hne c (by simp [hc])) hp.2⟩
        rcases Memory.mem_insert.mp hc with rfl | hc
        · show d < a
          omega
        · exact hp.1 c hc
  · rcases Memory.mem_insert.mp hc with rfl | hc
    · exact ⟨ha, hu⟩
    · exact h.2 c hc

/-- Writing a byte at an address of the space keeps the canonical form. -/
theorem Memory.wf_write {m : Memory} (h : m.wf) {a : Nat} (ha : a < Config.memSize) (u : Byte) :
    (m.write a u).wf := by
  unfold Memory.write
  split
  · exact Memory.wf_erase h a
  · rename_i hu
    exact Memory.wf_insert (Memory.wf_erase h a) ha hu (Memory.erase_ne m a)

/-- An address below every entry reads as unlisted. -/
theorem Memory.read_of_lt {m : Memory} {a : Nat} (h : ∀ c ∈ m, a < c.1) : m.read a = resetByte a := by
  induction m with
  | nil => rfl
  | cons c m ih =>
    obtain ⟨b, w⟩ := c
    have hb : a < b := h (b, w) (by simp)
    rw [Memory.read, if_neg (by omega), ih fun c hc => h c (by simp [hc])]

/-- Two memories in canonical form that read the same at every address are equal data. -/
theorem Memory.eq_of_read_eq {m q : Memory} (hm : m.wf) (hq : q.wf)
    (h : ∀ a, m.read a = q.read a) : m = q := by
  induction m generalizing q with
  | nil =>
    cases q with
    | nil => rfl
    | cons d q =>
      obtain ⟨b, w⟩ := d
      exact absurd (by simpa [Memory.read] using (h b).symm) (hq.2 (b, w) (by simp)).2
  | cons c m ih =>
    obtain ⟨a, u⟩ := c
    have hu := (hm.2 (a, u) (by simp)).2
    have hmp := List.pairwise_cons.mp hm.1
    cases q with
    | nil => exact absurd (by simpa [Memory.read] using h a) hu
    | cons d q =>
      obtain ⟨b, w⟩ := d
      have hw := (hq.2 (b, w) (by simp)).2
      have hqp := List.pairwise_cons.mp hq.1
      have above (r : Memory) (x y : Nat) (hr : ∀ c ∈ r, y < c.1) (hxy : x ≤ y) :
          r.read x = resetByte x := Memory.read_of_lt fun c hc => Nat.lt_of_le_of_lt hxy (hr c hc)
      have hab : a = b := by
        rcases Nat.lt_trichotomy a b with hlt | heq | hgt
        · have := h a
          simp only [Memory.read, if_true, if_neg (Nat.ne_of_lt hlt)] at this
          exact absurd (this.trans (above q a b hqp.1 hlt.le)) hu
        · exact heq
        · have := h b
          simp only [Memory.read, if_true, if_neg (Nat.ne_of_lt hgt)] at this
          exact absurd (this.symm.trans (above m b a hmp.1 hgt.le)) hw
      subst hab
      have huw : u = w := by simpa [Memory.read] using h a
      subst huw
      have tail : m = q := by
        refine ih ⟨hmp.2, fun c hc => hm.2 c (by simp [hc])⟩ ⟨hqp.2, fun c hc => hq.2 c (by simp [hc])⟩
          fun x => ?_
        by_cases hx : x = a
        · subst hx; rw [above m x x hmp.1 le_rfl, above q x x hqp.1 le_rfl]
        · simpa [Memory.read, hx] using h x
      rw [tail]

/-- The state's memory after reset is in canonical form. -/
theorem reset_mem_wf : State.reset.mem.wf := Memory.wf_nil

theorem State.mem_wf_memWrite {s : State} (h : s.mem.wf) (a : Word) (u : Byte) :
    (s.memWrite a u).mem.wf :=
  Memory.wf_write h (maskAddr_lt a) u

theorem State.mem_wf_memWriteList {s : State} (h : s.mem.wf) (a : Word) (bs : List Byte) :
    (s.memWriteList a bs).mem.wf := by
  induction bs generalizing s a with
  | nil => exact h
  | cons b bs ih => exact ih (State.mem_wf_memWrite h a b) (a + 1)

/-- A masked read after a masked write (R61). -/
theorem State.memRead_memWrite (s : State) (a b : Word) (u : Byte) :
    (s.memWrite a u).memRead b = if maskAddr b = maskAddr a then u else s.memRead b :=
  Memory.read_write s.mem (maskAddr a) (maskAddr b) u

/-- A read depends on the memory alone. -/
theorem State.memRead_congr {s t : State} (h : t.mem = s.mem) (a : Word) :
    t.memRead a = s.memRead a := by
  simp [State.memRead, h]

end Sys2Proof.Machine
end

