-- ==== Sys2Proof/Laws/Ops.lean ====
section
/-!
SUPPORT. One lemma per shared operation: what reading a register, a key, a stack entry, a pixel or
a byte gives after each named update.
-/

namespace Sys2Proof.Machine

/-! ## Registers -/

/-- A register after a write: the byte written, or as before (no register is hardwired, R21). -/
theorem State.readV_writeV (s : State) (r q : Reg) (b : Byte) :
    (s.writeV r b).readV q = if q = r then b else s.readV q := by
  unfold State.readV State.writeV
  by_cases h : q = r
  · subst h; simp
  · have : r.val ≠ q.val := fun e => h (Fin.ext e.symm)
    simp [h, this]

@[simp] theorem State.readV_writeV_self (s : State) (r : Reg) (b : Byte) :
    (s.writeV r b).readV r = b := by
  simp [State.readV_writeV]

theorem State.readV_writeV_ne (s : State) {r q : Reg} (h : q ≠ r) (b : Byte) :
    (s.writeV r b).readV q = s.readV q := by
  simp [State.readV_writeV, h]

/-- A register depends on the register file alone. -/
theorem State.readV_congr {s t : State} (h : t.v = s.v) (r : Reg) : t.readV r = s.readV r := by
  simp [State.readV, h]

@[simp] theorem State.readV_setI (s : State) (a : Word) (r : Reg) : (s.setI a).readV r = s.readV r := rfl
@[simp] theorem State.readV_setPc (s : State) (a : Word) (r : Reg) : (s.setPc a).readV r = s.readV r := rfl
@[simp] theorem State.readV_setDt (s : State) (b : Byte) (r : Reg) : (s.setDt b).readV r = s.readV r := rfl
@[simp] theorem State.readV_setSt (s : State) (b : Byte) (r : Reg) : (s.setSt b).readV r = s.readV r := rfl
@[simp] theorem State.readV_setWait (s : State) (b : Bool) (r : Reg) : (s.setWait b).readV r = s.readV r := rfl
@[simp] theorem State.readV_setFb (s : State) (f : Framebuffer) (r : Reg) : (s.setFb f).readV r = s.readV r := rfl
@[simp] theorem State.readV_setKey (s : State) (k : Fin 16) (b : Bool) (r : Reg) : (s.setKey k b).readV r = s.readV r := rfl
@[simp] theorem State.readV_push (s : State) (k : Fin 16) (a : Word) (r : Reg) : (s.push k a).readV r = s.readV r := rfl
@[simp] theorem State.readV_pop (s : State) (k : Fin 16) (r : Reg) : (s.pop k).readV r = s.readV r := rfl
@[simp] theorem State.readV_draw (s : State) (r : Reg) : s.draw.readV r = s.readV r := rfl
@[simp] theorem State.readV_memWrite (s : State) (a : Word) (b : Byte) (r : Reg) : (s.memWrite a b).readV r = s.readV r := rfl
@[simp] theorem State.readV_raise (s : State) (f : Fault) (r : Reg) : (s.raise f).readV r = s.readV r := rfl
@[simp] theorem readV_fetch (s : State) (r : Reg) : (fetch s).readV r = s.readV r := rfl

/-! ## Memory -/

@[simp] theorem State.memRead_writeV (s : State) (r : Reg) (b : Byte) (a : Word) : (s.writeV r b).memRead a = s.memRead a := rfl
@[simp] theorem State.memRead_setI (s : State) (b a : Word) : (s.setI b).memRead a = s.memRead a := rfl
@[simp] theorem State.memRead_setPc (s : State) (b a : Word) : (s.setPc b).memRead a = s.memRead a := rfl
@[simp] theorem State.memRead_setDt (s : State) (b : Byte) (a : Word) : (s.setDt b).memRead a = s.memRead a := rfl
@[simp] theorem State.memRead_setSt (s : State) (b : Byte) (a : Word) : (s.setSt b).memRead a = s.memRead a := rfl
@[simp] theorem State.memRead_setWait (s : State) (b : Bool) (a : Word) : (s.setWait b).memRead a = s.memRead a := rfl
@[simp] theorem State.memRead_setFb (s : State) (f : Framebuffer) (a : Word) : (s.setFb f).memRead a = s.memRead a := rfl
@[simp] theorem State.memRead_setKey (s : State) (k : Fin 16) (b : Bool) (a : Word) : (s.setKey k b).memRead a = s.memRead a := rfl
@[simp] theorem State.memRead_push (s : State) (k : Fin 16) (b a : Word) : (s.push k b).memRead a = s.memRead a := rfl
@[simp] theorem State.memRead_pop (s : State) (k : Fin 16) (a : Word) : (s.pop k).memRead a = s.memRead a := rfl
@[simp] theorem State.memRead_draw (s : State) (a : Word) : s.draw.memRead a = s.memRead a := rfl
@[simp] theorem State.memRead_raise (s : State) (f : Fault) (a : Word) : (s.raise f).memRead a = s.memRead a := rfl
@[simp] theorem memRead_fetch (s : State) (a : Word) : (fetch s).memRead a = s.memRead a := rfl

/-! ## Stack -/

/-- A stack entry after a push (R132). -/
theorem State.stackAt_push (s : State) (k q : Fin 16) (a : Word) :
    (s.push k a).stackAt q = if q = k then a else s.stackAt q := by
  unfold State.stackAt State.push
  by_cases h : q = k
  · subst h; simp
  · have : k.val ≠ q.val := fun e => h (Fin.ext e.symm)
    simp [h, this]

/-- A stack entry depends on the stack alone. -/
theorem State.stackAt_congr {s t : State} (h : t.stack = s.stack) (k : Fin 16) :
    t.stackAt k = s.stackAt k := by
  simp [State.stackAt, h]

/-! ## Keys -/

/-- A key after a keypad write (R204). -/
theorem State.keyDown_setKey (s : State) (k q : Fin 16) (b : Bool) :
    (s.setKey k b).keyDown q = if q = k then b else s.keyDown q := by
  unfold State.keyDown State.setKey
  by_cases h : q = k
  · subst h; simp
  · have : k.val ≠ q.val := fun e => h (Fin.ext e.symm)
    simp [h, this]

/-- A key depends on the keypad alone. -/
theorem State.keyDown_congr {s t : State} (h : t.key = s.key) (k : Fin 16) :
    t.keyDown k = s.keyDown k := by
  simp [State.keyDown, h]

/-! ## Pixels -/

/-- A pixel after a pixel write. -/
theorem Framebuffer.get_put (f : Framebuffer) (x x' : Fin Config.fbW) (y y' : Fin Config.fbH)
    (b : Bool) :
    Framebuffer.get (Framebuffer.put f x y b) x' y' =
      if x' = x ∧ y' = y then b else Framebuffer.get f x' y' := by
  unfold Framebuffer.get Framebuffer.put
  by_cases hy : y' = y
  · subst hy
    by_cases hx : x' = x
    · subst hx; simp
    · have : x.val ≠ x'.val := fun e => hx (Fin.ext e.symm)
      simp [hx, this]
  · have : y.val ≠ y'.val := fun e => hy (Fin.ext e.symm)
    simp [hy, this]

/-- Every pixel of the blank screen is 0 (R120). -/
@[simp] theorem blankScreen_get (x : Fin Config.fbW) (y : Fin Config.fbH) :
    Framebuffer.get blankScreen x y = false := by
  simp [Framebuffer.get, blankScreen]

/-! ## Skips -/

/-- A conditional skip changes `PC` alone (R110, R140). -/
theorem State.skipIf_eq (s : State) (c : Bool) :
    s.skipIf c = s.setPc (if c then s.pc + 2 else s.pc) := by
  cases c <;> rfl

end Sys2Proof.Machine
end

