-- ==== Sys2Proof/Laws/PerInstr.lean ====
section
/-!
SUPPORT. A statement per instruction about the encoding: the word the encoder gives selects a row
of the opcode map (spec/30_encoding.md R85, R86), for every value of the operands.
-/

namespace Sys2Proof.Laws

/-- The word of the instruction is one the opcode map recognises. -/
def EncodeSelectsRow.Statement (i : Instr) : Prop := wellFormedWord (encode i) = true

/-- A row of the map that selects a word makes it well formed. -/
theorem wellFormedWord_of_row {r : OpRow} (hr : r ∈ opTable) {w : Word} (h : w &&& r.mask = r.pattern) :
    wellFormedWord w = true :=
  List.any_eq_true.mpr ⟨r, hr, by simp [OpRow.selects, h]⟩

/-- Format NNN under the mask 0xF000 keeps the family digit. -/
theorem wordNNN_mask (t : BitVec 4) (nnn : Addr12) : wordNNN t nnn &&& 0xF000 = t ++ (0 : BitVec 12) := by
  show (t ++ nnn) &&& ((0xF : BitVec 4) ++ (0 : BitVec 12)) = _
  rw [BitVec.and_append]
  have h : t &&& 15#4 = t := BitVec.and_allOnes
  simp [h]

/-- Format XKK under the mask 0xF000 keeps the family digit. -/
theorem wordXKK_mask (t : BitVec 4) (x : Reg) (kk : Byte) :
    wordXKK t x kk &&& 0xF000 = t ++ (0 : BitVec 4) ++ (0 : Byte) := by
  show (t ++ (BitVec.ofFin x : BitVec 4) ++ kk) &&& ((0xF : BitVec 4) ++ (0 : BitVec 4) ++ (0 : Byte)) = _
  rw [BitVec.and_append, BitVec.and_append]
  have h : t &&& 15#4 = t := BitVec.and_allOnes
  simp [h]

/-- Format XSS under the mask 0xF0FF keeps the family digit and the bottom byte. -/
theorem wordXSS_mask (t : BitVec 4) (x : Reg) (ss : Byte) :
    wordXKK t x ss &&& 0xF0FF = t ++ (0 : BitVec 4) ++ ss := by
  show (t ++ (BitVec.ofFin x : BitVec 4) ++ ss) &&& ((0xF : BitVec 4) ++ (0 : BitVec 4) ++ (0xFF : Byte)) = _
  rw [BitVec.and_append, BitVec.and_append]
  have h : t &&& 15#4 = t := BitVec.and_allOnes
  have h' : ss &&& 255#8 = ss := BitVec.and_allOnes
  simp [h, h']

/-- Format XYN under the mask 0xF000 keeps the family digit. -/
theorem wordXYN_mask (t : BitVec 4) (x y : Reg) (n : Fin 16) :
    wordXYN t x y n &&& 0xF000 = t ++ (0 : BitVec 4) ++ (0 : BitVec 4) ++ (0 : BitVec 4) := by
  show (t ++ (BitVec.ofFin x : BitVec 4) ++ (BitVec.ofFin y : BitVec 4) ++ (BitVec.ofFin n : BitVec 4)) &&&
    ((0xF : BitVec 4) ++ (0 : BitVec 4) ++ (0 : BitVec 4) ++ (0 : BitVec 4)) =
    t ++ (0 : BitVec 4) ++ (0 : BitVec 4) ++ (0 : BitVec 4)
  rw [BitVec.and_append, BitVec.and_append, BitVec.and_append]
  have h : t &&& 15#4 = t := BitVec.and_allOnes
  simp [h]

/-- Format XYS under the mask 0xF00F keeps the family digit and the bottom nibble. -/
theorem wordXYS_mask (t : BitVec 4) (x y : Reg) (n : Fin 16) :
    wordXYN t x y n &&& 0xF00F =
      t ++ (0 : BitVec 4) ++ (0 : BitVec 4) ++ (BitVec.ofFin n : BitVec 4) := by
  show (t ++ (BitVec.ofFin x : BitVec 4) ++ (BitVec.ofFin y : BitVec 4) ++ (BitVec.ofFin n : BitVec 4)) &&&
    ((0xF : BitVec 4) ++ (0 : BitVec 4) ++ (0 : BitVec 4) ++ (0xF : BitVec 4)) =
    t ++ (0 : BitVec 4) ++ (0 : BitVec 4) ++ (BitVec.ofFin n : BitVec 4)
  rw [BitVec.and_append, BitVec.and_append, BitVec.and_append]
  have h : t &&& 15#4 = t := BitVec.and_allOnes
  have h' : (BitVec.ofFin n : BitVec 4) &&& 15#4 = BitVec.ofFin n := BitVec.and_allOnes
  simp [h, h']

theorem EncodeSelectsRow.cls : EncodeSelectsRow.Statement (.cls) :=
  wellFormedWord_of_row (r := ⟨0xFFFF, 0x00E0⟩) (by decide) (by decide)

theorem EncodeSelectsRow.ret : EncodeSelectsRow.Statement (.ret) :=
  wellFormedWord_of_row (r := ⟨0xFFFF, 0x00EE⟩) (by decide) (by decide)

theorem EncodeSelectsRow.jp (nnn : Addr12) : EncodeSelectsRow.Statement (.jp nnn) :=
  wellFormedWord_of_row (r := ⟨0xF000, 0x1000⟩) (by decide) ((wordNNN_mask 0x1 nnn).trans (by decide))

theorem EncodeSelectsRow.call (nnn : Addr12) : EncodeSelectsRow.Statement (.call nnn) :=
  wellFormedWord_of_row (r := ⟨0xF000, 0x2000⟩) (by decide) ((wordNNN_mask 0x2 nnn).trans (by decide))

theorem EncodeSelectsRow.seByte (x : Reg) (kk : Byte) : EncodeSelectsRow.Statement (.seByte x kk) :=
  wellFormedWord_of_row (r := ⟨0xF000, 0x3000⟩) (by decide) ((wordXKK_mask 0x3 x kk).trans (by decide))

theorem EncodeSelectsRow.sneByte (x : Reg) (kk : Byte) : EncodeSelectsRow.Statement (.sneByte x kk) :=
  wellFormedWord_of_row (r := ⟨0xF000, 0x4000⟩) (by decide) ((wordXKK_mask 0x4 x kk).trans (by decide))

theorem EncodeSelectsRow.seReg (x y : Reg) : EncodeSelectsRow.Statement (.seReg x y) :=
  wellFormedWord_of_row (r := ⟨0xF00F, 0x5000⟩) (by decide) ((wordXYS_mask 0x5 x y 0x0).trans (by decide))

theorem EncodeSelectsRow.ldByte (x : Reg) (kk : Byte) : EncodeSelectsRow.Statement (.ldByte x kk) :=
  wellFormedWord_of_row (r := ⟨0xF000, 0x6000⟩) (by decide) ((wordXKK_mask 0x6 x kk).trans (by decide))

theorem EncodeSelectsRow.addByte (x : Reg) (kk : Byte) : EncodeSelectsRow.Statement (.addByte x kk) :=
  wellFormedWord_of_row (r := ⟨0xF000, 0x7000⟩) (by decide) ((wordXKK_mask 0x7 x kk).trans (by decide))

theorem EncodeSelectsRow.ldReg (x y : Reg) : EncodeSelectsRow.Statement (.ldReg x y) :=
  wellFormedWord_of_row (r := ⟨0xF00F, 0x8000⟩) (by decide) ((wordXYS_mask 0x8 x y 0x0).trans (by decide))

theorem EncodeSelectsRow.orReg (x y : Reg) : EncodeSelectsRow.Statement (.orReg x y) :=
  wellFormedWord_of_row (r := ⟨0xF00F, 0x8001⟩) (by decide) ((wordXYS_mask 0x8 x y 0x1).trans (by decide))

theorem EncodeSelectsRow.andReg (x y : Reg) : EncodeSelectsRow.Statement (.andReg x y) :=
  wellFormedWord_of_row (r := ⟨0xF00F, 0x8002⟩) (by decide) ((wordXYS_mask 0x8 x y 0x2).trans (by decide))

theorem EncodeSelectsRow.xorReg (x y : Reg) : EncodeSelectsRow.Statement (.xorReg x y) :=
  wellFormedWord_of_row (r := ⟨0xF00F, 0x8003⟩) (by decide) ((wordXYS_mask 0x8 x y 0x3).trans (by decide))

theorem EncodeSelectsRow.addReg (x y : Reg) : EncodeSelectsRow.Statement (.addReg x y) :=
  wellFormedWord_of_row (r := ⟨0xF00F, 0x8004⟩) (by decide) ((wordXYS_mask 0x8 x y 0x4).trans (by decide))

theorem EncodeSelectsRow.subReg (x y : Reg) : EncodeSelectsRow.Statement (.subReg x y) :=
  wellFormedWord_of_row (r := ⟨0xF00F, 0x8005⟩) (by decide) ((wordXYS_mask 0x8 x y 0x5).trans (by decide))

theorem EncodeSelectsRow.shr (x y : Reg) : EncodeSelectsRow.Statement (.shr x y) :=
  wellFormedWord_of_row (r := ⟨0xF00F, 0x8006⟩) (by decide) ((wordXYS_mask 0x8 x y 0x6).trans (by decide))

theorem EncodeSelectsRow.subn (x y : Reg) : EncodeSelectsRow.Statement (.subn x y) :=
  wellFormedWord_of_row (r := ⟨0xF00F, 0x8007⟩) (by decide) ((wordXYS_mask 0x8 x y 0x7).trans (by decide))

theorem EncodeSelectsRow.shl (x y : Reg) : EncodeSelectsRow.Statement (.shl x y) :=
  wellFormedWord_of_row (r := ⟨0xF00F, 0x800E⟩) (by decide) ((wordXYS_mask 0x8 x y 0xE).trans (by decide))

theorem EncodeSelectsRow.sneReg (x y : Reg) : EncodeSelectsRow.Statement (.sneReg x y) :=
  wellFormedWord_of_row (r := ⟨0xF00F, 0x9000⟩) (by decide) ((wordXYS_mask 0x9 x y 0x0).trans (by decide))

theorem EncodeSelectsRow.ldI (nnn : Addr12) : EncodeSelectsRow.Statement (.ldI nnn) :=
  wellFormedWord_of_row (r := ⟨0xF000, 0xA000⟩) (by decide) ((wordNNN_mask 0xA nnn).trans (by decide))

theorem EncodeSelectsRow.jpV0 (nnn : Addr12) : EncodeSelectsRow.Statement (.jpV0 nnn) :=
  wellFormedWord_of_row (r := ⟨0xF000, 0xB000⟩) (by decide) ((wordNNN_mask 0xB nnn).trans (by decide))

theorem EncodeSelectsRow.rnd (x : Reg) (kk : Byte) : EncodeSelectsRow.Statement (.rnd x kk) :=
  wellFormedWord_of_row (r := ⟨0xF000, 0xC000⟩) (by decide) ((wordXKK_mask 0xC x kk).trans (by decide))

theorem EncodeSelectsRow.drw (x y : Reg) (n : Fin 16) : EncodeSelectsRow.Statement (.drw x y n) :=
  wellFormedWord_of_row (r := ⟨0xF000, 0xD000⟩) (by decide) ((wordXYN_mask 0xD x y n).trans (by decide))

theorem EncodeSelectsRow.skp (x : Reg) : EncodeSelectsRow.Statement (.skp x) :=
  wellFormedWord_of_row (r := ⟨0xF0FF, 0xE09E⟩) (by decide) ((wordXSS_mask 0xE x 0x9E).trans (by decide))

theorem EncodeSelectsRow.sknp (x : Reg) : EncodeSelectsRow.Statement (.sknp x) :=
  wellFormedWord_of_row (r := ⟨0xF0FF, 0xE0A1⟩) (by decide) ((wordXSS_mask 0xE x 0xA1).trans (by decide))

theorem EncodeSelectsRow.ldVxDT (x : Reg) : EncodeSelectsRow.Statement (.ldVxDT x) :=
  wellFormedWord_of_row (r := ⟨0xF0FF, 0xF007⟩) (by decide) ((wordXSS_mask 0xF x 0x07).trans (by decide))

theorem EncodeSelectsRow.ldVxK (x : Reg) : EncodeSelectsRow.Statement (.ldVxK x) :=
  wellFormedWord_of_row (r := ⟨0xF0FF, 0xF00A⟩) (by decide) ((wordXSS_mask 0xF x 0x0A).trans (by decide))

theorem EncodeSelectsRow.ldDT (x : Reg) : EncodeSelectsRow.Statement (.ldDT x) :=
  wellFormedWord_of_row (r := ⟨0xF0FF, 0xF015⟩) (by decide) ((wordXSS_mask 0xF x 0x15).trans (by decide))

theorem EncodeSelectsRow.ldST (x : Reg) : EncodeSelectsRow.Statement (.ldST x) :=
  wellFormedWord_of_row (r := ⟨0xF0FF, 0xF018⟩) (by decide) ((wordXSS_mask 0xF x 0x18).trans (by decide))

theorem EncodeSelectsRow.addI (x : Reg) : EncodeSelectsRow.Statement (.addI x) :=
  wellFormedWord_of_row (r := ⟨0xF0FF, 0xF01E⟩) (by decide) ((wordXSS_mask 0xF x 0x1E).trans (by decide))

theorem EncodeSelectsRow.ldF (x : Reg) : EncodeSelectsRow.Statement (.ldF x) :=
  wellFormedWord_of_row (r := ⟨0xF0FF, 0xF029⟩) (by decide) ((wordXSS_mask 0xF x 0x29).trans (by decide))

theorem EncodeSelectsRow.ldB (x : Reg) : EncodeSelectsRow.Statement (.ldB x) :=
  wellFormedWord_of_row (r := ⟨0xF0FF, 0xF033⟩) (by decide) ((wordXSS_mask 0xF x 0x33).trans (by decide))

theorem EncodeSelectsRow.stRegs (x : Reg) : EncodeSelectsRow.Statement (.stRegs x) :=
  wellFormedWord_of_row (r := ⟨0xF0FF, 0xF055⟩) (by decide) ((wordXSS_mask 0xF x 0x55).trans (by decide))

theorem EncodeSelectsRow.ldRegs (x : Reg) : EncodeSelectsRow.Statement (.ldRegs x) :=
  wellFormedWord_of_row (r := ⟨0xF0FF, 0xF065⟩) (by decide) ((wordXSS_mask 0xF x 0x65).trans (by decide))

end Sys2Proof.Laws
end

