-- ==== Sys2Proof/Laws/Session.lean ====
section
/-!
SUPPORT. The host layer: an infinite sequence of operations agrees with the finite runs of its
prefixes, and one lemma that says what an operation on one of several cores can do.
-/

namespace Sys2Proof.Machine

/-- A run of one operation after a run. -/
theorem Session.run_append_one (m : Session) (os : List HostOp) (o : HostOp) :
    m.run (os ++ [o]) =
      match m.run os with
      | .error r => .error r
      | .ok m' =>
        match m'.apply o with
        | .ok (m'', _) => .ok m''
        | .error r => .error r := by
  induction os generalizing m with
  | nil =>
    cases h : m.apply o <;> simp [Session.run, h]
  | cons p os ih =>
    simp only [List.cons_append, Session.run]
    rcases m.apply p with _ | ⟨m', r⟩
    · rfl
    · exact ih m'

/-- The first `n` operations of an infinite sequence are the finite run of that prefix (R208). -/
theorem Session.after_eq_run (m : Session) (ops : Nat → HostOp) (n : Nat) :
    m.after ops n = m.run ((List.range n).map ops) := by
  induction n with
  | zero => rfl
  | succ n ih =>
    rw [List.range_succ, List.map_append, List.map_singleton, Session.run_append_one, ← ih]
    rfl

/-- What an operation on one of several cores can do: that core's own operation, and nothing else
(R212). -/
theorem Cores.apply_ok {n : Nat} {b b' : Cores n} {k : Fin n} {o : HostOp} {r : Report}
    (h : b.apply k o = .ok (b', r)) :
    ∃ m, (b[k.val]).apply o = .ok (m, r) ∧ b' = b.set k.val m := by
  unfold Cores.apply at h
  split at h
  · cases h; exact ⟨_, ‹_›, rfl⟩
  · cases h

/-- Core `k` of those constructed owns source `k`. -/
theorem Cores.construct_source {n : Nat} (k : Fin n) :
    ((Cores.construct n)[k.val]).core.source = k.val := by
  simp [Cores.construct, Session.construct, State.construct]

end Sys2Proof.Machine
end

