-- ==== Sys2Proof/Tests/Slice0.lean ====
section
/-!
SUPPORT. Tests. Every expected value is one of spec/95_test_vectors.md (its vector is named in the
docstring) or of the rule named. The witnesses at the end show, for each obligation with
hypotheses, a state and operands that meet them.
-/

namespace Sys2Proof.Tests

open Sys2Proof Sys2Proof.Machine

/-! ## Decoding: a word written out from the encodings of R86 for every constructor -/

/-- Families 0 to 7 (R86 rows 1 to 9): `0000 0000 1110 0000` and so on. -/
theorem test_decode_families_0_to_7 :
    decodeWord 0b0000_0000_1110_0000 = .ok .cls ∧
    decodeWord 0b0000_0000_1110_1110 = .ok .ret ∧
    decodeWord 0b0001_1010_1011_1100 = .ok (.jp 0xABC) ∧
    decodeWord 0b0010_1010_1011_1100 = .ok (.call 0xABC) ∧
    decodeWord 0b0011_1010_0100_0010 = .ok (.seByte 10 0x42) ∧
    decodeWord 0b0100_1010_0100_0010 = .ok (.sneByte 10 0x42) ∧
    decodeWord 0b0101_0001_0010_0000 = .ok (.seReg 1 2) ∧
    decodeWord 0b0110_1010_0100_0010 = .ok (.ldByte 10 0x42) ∧
    decodeWord 0b0111_1010_0001_0000 = .ok (.addByte 10 0x10) := by decide

/-- Family 8 (R86 rows 10 to 18). -/
theorem test_decode_family_8 :
    decodeWord 0b1000_0001_0010_0000 = .ok (.ldReg 1 2) ∧
    decodeWord 0b1000_0001_0010_0001 = .ok (.orReg 1 2) ∧
    decodeWord 0b1000_0001_0010_0010 = .ok (.andReg 1 2) ∧
    decodeWord 0b1000_0001_0010_0011 = .ok (.xorReg 1 2) ∧
    decodeWord 0b1000_0001_0010_0100 = .ok (.addReg 1 2) ∧
    decodeWord 0b1000_0001_0010_0101 = .ok (.subReg 1 2) ∧
    decodeWord 0b1000_0001_0010_0110 = .ok (.shr 1 2) ∧
    decodeWord 0b1000_0001_0010_0111 = .ok (.subn 1 2) ∧
    decodeWord 0b1000_0001_0010_1110 = .ok (.shl 1 2) := by decide

/-- Families 9 to E (R86 rows 19 to 25). -/
theorem test_decode_families_9_to_E :
    decodeWord 0b1001_0001_0010_0000 = .ok (.sneReg 1 2) ∧
    decodeWord 0b1010_0010_1111_0000 = .ok (.ldI 0x2F0) ∧
    decodeWord 0b1011_0011_0000_0000 = .ok (.jpV0 0x300) ∧
    decodeWord 0b1100_0011_0000_1111 = .ok (.rnd 3 0x0F) ∧
    decodeWord 0b1101_0001_0010_0101 = .ok (.drw 1 2 5) ∧
    decodeWord 0b1110_0001_1001_1110 = .ok (.skp 1) ∧
    decodeWord 0b1110_0001_1010_0001 = .ok (.sknp 1) := by decide

/-- Family F (R86 rows 26 to 34). -/
theorem test_decode_family_F :
    decodeWord 0b1111_0011_0000_0111 = .ok (.ldVxDT 3) ∧
    decodeWord 0b1111_0001_0000_1010 = .ok (.ldVxK 1) ∧
    decodeWord 0b1111_0000_0001_0101 = .ok (.ldDT 0) ∧
    decodeWord 0b1111_0110_0001_1000 = .ok (.ldST 6) ∧
    decodeWord 0b1111_0010_0001_1110 = .ok (.addI 2) ∧
    decodeWord 0b1111_0101_0010_1001 = .ok (.ldF 5) ∧
    decodeWord 0b1111_0100_0011_0011 = .ok (.ldB 4) ∧
    decodeWord 0b1111_0010_0101_0101 = .ok (.stRegs 2) ∧
    decodeWord 0b1111_0010_0110_0101 = .ok (.ldRegs 2) := by decide

/-- The decoder reads the high byte from the lower address and leaves the rest (F1, R65). -/
theorem test_decode_bytes :
    decode [0x6A, 0x42, 0x12] = .ok (.ldByte 10 0x42, [0x12]) ∧
    decode [0x6A] = .error .tooShort := by decide

/-- The opcode table's numbering: bits 15 to 0 of the one word. -/
theorem test_decode_table_word :
    decodeTableWord 16 0x8124 = some (.addReg 1 2) ∧ decodeTableWord 16 0x8128 = none := by decide

/-! ## WellFormed: an ill-formed word for each check, which the check refuses -/

/-- Family 0: U1 to U5. -/
theorem test_illformed_family_0 :
    [0x0000, 0x00E1, 0x01E0, 0x0FFF, 0x00FE].all (fun w => !wellFormedWord w) = true := by decide

/-- Families 5, 8 and 9: U6 to U10. -/
theorem test_illformed_families_5_8_9 :
    [0x5121, 0x512F, 0x8128, 0x812F, 0x9121].all (fun w => !wellFormedWord w) = true := by decide

/-- Families E and F: U11 to U17. -/
theorem test_illformed_families_E_F :
    [0xE100, 0xE19F, 0xE1A0, 0xF000, 0xF1FF, 0xF175, 0xF130].all (fun w => !wellFormedWord w)
      = true := by decide

/-- Each row of the opcode map selects its own word (R86). -/
theorem test_wellformed_rows : opTable.all (fun r => r.selects r.pattern) = true := by decide

/-- The decoder refuses the same words, by name (U1 to U17). -/
theorem test_decode_refuses :
    [0x0000, 0x00E1, 0x01E0, 0x0FFF, 0x00FE, 0x5121, 0x512F, 0x8128, 0x812F, 0x9121, 0xE100, 0xE19F,
      0xE1A0, 0xF000, 0xF1FF, 0xF175, 0xF130].all
      (fun w => decide (decodeWord w = .error (.unrecognised w))) = true := by decide

/-! ## Small states -/

/-- The reset state with some registers set. -/
def regs (l : List (Reg × Byte)) : State := l.foldl (fun s p => s.writeV p.1 p.2) State.reset

/-- Bytes at consecutive addresses. -/
def bytesAt (s : State) (a : Word) (l : List Byte) : State := s.memWriteList a l

/-- `I` and `PC` set. -/
def indexAt (s : State) (a : Word) : State := s.setI a

/-- A key pressed. -/
def press (s : State) (k : Fin 16) : State := s.setKey k true

/-- A pixel turned on. -/
def light (s : State) (x : Fin 64) (y : Fin 32) : State := s.setFb (s.fb.put x y true)

/-- A step gives a next state with the property. -/
def gives (o : Host.Outcome State Fault Refusal) (p : State → Bool) : Bool :=
  match o with
  | .next t => p t
  | .fault _ => false
  | .refused _ => false

/-- One cycle of the word placed at `PC` gives a next state with the property. -/
def runs (s : State) (w : Word) (p : State → Bool) : Bool := gives (step (s.placeWord w)) p

/-- The state a step gives (used where it gives one). -/
def nextOf (o : Host.Outcome State Fault Refusal) : State :=
  match o with
  | .next t => t
  | .fault _ => State.reset
  | .refused _ => State.reset

/-! ## Fetch and the fault gate -/

/-- F3: the second byte is fetched from 000; `PC` keeps 16 bits. -/
theorem test_fetch_wraps :
    runs (State.reset.setPc 0x0FFF) 0x6A42
      (fun t => t.readV 10 == 0x42 && t.pc == 0x1001 && t.opcode == 0x6A42 && !t.wait) = true := by decide

/-- F2: an odd `PC` does not fault. -/
theorem test_fetch_odd :
    runs (State.reset.setPc 0x0201) 0x6A42
      (fun t => t.readV 10 == 0x42 && t.pc == 0x0203) = true := by decide

/-- F6: a skip at FFFE wraps `PC` at 65536. -/
theorem test_pc_wraps :
    runs (State.reset.setPc 0xFFFE) 0x3000
      (fun t => t.pc == 0x0002) = true := by decide

/-- U3: `01E0` does not clear the screen; only `PC` moves on. -/
theorem test_unrecognised :
    runs (light (regs [(15, 9)]) 1 1) 0x01E0
      (fun t => t.fb.get 1 1 && t.readV 15 == 9 && t.pc == 0x0202) = true := by decide

/-- U3: the outcome names the word. -/
theorem test_unrecognised_outcome :
    (executeCycle (State.reset.placeWord 0x01E0)).toOption.map Prod.snd = some (.unrecognised 0x01E0) := by decide

/-- J10: with a fault latched the cycle changes nothing and repeats the outcome. -/
theorem test_fault_gate :
    executeCycle (State.reset.raise .stackOverflow) =
      .ok (State.reset.raise .stackOverflow, .faulted .stackOverflow) := by decide

/-- R104 on the word 0000 of empty memory: from reset a cycle is a no-op. -/
theorem test_zero_memory :
    gives (step State.reset) (fun t => t.pc == 0x0202 && t.readV 0 == 0) = true := by decide

/-! ## Display -/

/-- W1: every pixel 0, VF not written. -/
theorem test_cls :
    runs (light (light (regs [(15, 1)]) 0 0) 63 31) 0x00E0
      (fun t => !t.fb.get 0 0 && !t.fb.get 63 31 && t.readV 15 == 1 && t.pc == 0x0202) = true := by decide

/-- W9: columns and rows wrap; bit 7 is the leftmost pixel. -/
theorem test_drw_wraps :
    runs (bytesAt (indexAt (regs [(1, 0x3C), (2, 0x1F)]) 0x300) 0x300 [0xFF, 0x81]) 0xD122
      (fun t => t.fb.get 60 31 && t.fb.get 3 31 && !t.fb.get 4 31 && t.fb.get 60 0 && !t.fb.get 61 0 &&
        t.fb.get 3 0 && t.readV 15 == 0) = true := by decide

/-- W11: the position uses the old VF; a pixel turned off sets VF. -/
theorem test_drw_collision :
    runs (light (bytesAt (indexAt (regs [(15, 3), (1, 2)]) 0x300) 0x300 [0x80]) 3 2) 0xDF11
      (fun t => !t.fb.get 3 2 && t.readV 15 == 1) = true := by decide

/-! ## Control flow -/

/-- J1. -/
theorem test_jp :
    runs State.reset 0x1ABC
      (fun t => t.pc == 0x0ABC) = true := by decide

/-- J4: the sixteenth call succeeds. -/
theorem test_call :
    runs { State.reset with pc := 0x204, sp := 15 } 0x2ABC
      (fun t => t.stackAt 15 == 0x206 && t.sp == 16 && t.pc == 0x0ABC && t.fault == none) = true := by decide

/-- J5: the seventeenth raises; no entry is written. -/
theorem test_call_overflow :
    runs { State.reset with pc := 0x204, sp := 16 } 0x2ABC
      (fun t => t.fault == some .stackOverflow && t.pc == 0x206 && t.sp == 16 && t.stackAt 15 == 0 &&
        t.opcode == 0x2ABC) = true := by decide

/-- J8. -/
theorem test_ret :
    runs { State.reset.push 15 0x0ABC with pc := 0x300 } 0x00EE
      (fun t => t.sp == 15 && t.pc == 0x0ABC && t.stackAt 15 == 0x0ABC) = true := by decide

/-- J9. -/
theorem test_ret_underflow :
    runs (State.reset.setPc 0x300) 0x00EE
      (fun t => t.fault == some .stackUnderflow && t.pc == 0x302 && t.sp == 0) = true := by decide

/-- J12: the sum is not reduced. -/
theorem test_jpV0 :
    runs (regs [(0, 0xFF)]) 0xBFFF
      (fun t => t.pc == 0x10FE) = true := by decide

/-! ## Skips -/

/-- K1. -/
theorem test_seByte :
    runs (regs [(10, 0x42)]) 0x3A42
      (fun t => t.pc == 0x204) = true := by decide

/-- K2. -/
theorem test_seByte_not :
    runs (regs [(10, 0x43)]) 0x3A42
      (fun t => t.pc == 0x202) = true := by decide

/-- K4. -/
theorem test_sneByte :
    runs (regs [(10, 0x43)]) 0x4A42
      (fun t => t.pc == 0x204) = true := by decide

/-- K3. -/
theorem test_sneByte_not :
    runs (regs [(10, 0x42)]) 0x4A42
      (fun t => t.pc == 0x202) = true := by decide

/-- K5. -/
theorem test_seReg :
    runs (regs [(1, 7), (2, 7)]) 0x5120
      (fun t => t.pc == 0x204) = true := by decide

/-- K6. -/
theorem test_seReg_not :
    runs (regs [(1, 7), (2, 8)]) 0x5120
      (fun t => t.pc == 0x202) = true := by decide

/-- K9. -/
theorem test_sneReg :
    runs (regs [(1, 7), (2, 8)]) 0x9120
      (fun t => t.pc == 0x204) = true := by decide

/-- K8. -/
theorem test_sneReg_not :
    runs (regs [(1, 7), (2, 7)]) 0x9120
      (fun t => t.pc == 0x202) = true := by decide

/-- K12: the key index is the low four bits. -/
theorem test_skp :
    runs (press (regs [(1, 0x15)]) 5) 0xE19E
      (fun t => t.pc == 0x204) = true := by decide

/-- K10 with KEY[5] = 0. -/
theorem test_skp_not :
    runs (regs [(1, 5)]) 0xE19E
      (fun t => t.pc == 0x202) = true := by decide

/-- K11 with KEY[5] = 0. -/
theorem test_sknp :
    runs (regs [(1, 5)]) 0xE1A1
      (fun t => t.pc == 0x204) = true := by decide

/-- K11. -/
theorem test_sknp_not :
    runs (press (regs [(1, 5)]) 5) 0xE1A1
      (fun t => t.pc == 0x202) = true := by decide

/-! ## Registers and ALU -/

/-- A2: VF as a plain destination. -/
theorem test_ldByte :
    runs (regs [(15, 9)]) 0x6F00
      (fun t => t.readV 15 == 0) = true := by decide

/-- A3: wraps with no flag. -/
theorem test_addByte :
    runs (regs [(10, 0xFF)]) 0x7A01
      (fun t => t.readV 10 == 0 && t.readV 15 == 0) = true := by decide

/-- A5: on VF it is a wrap, not a flag. -/
theorem test_addByte_vF :
    runs (regs [(15, 0xFF)]) 0x7F01
      (fun t => t.readV 15 == 0) = true := by decide

/-- A6. -/
theorem test_ldReg :
    runs (regs [(1, 1), (2, 0x7E)]) 0x8120
      (fun t => t.readV 1 == 0x7E && t.readV 2 == 0x7E) = true := by decide

/-- A7: VF unchanged. -/
theorem test_orReg :
    runs (regs [(1, 0xF0), (2, 0x0F), (15, 1)]) 0x8121
      (fun t => t.readV 1 == 0xFF && t.readV 15 == 1) = true := by decide

/-- A8: VF unchanged. -/
theorem test_andReg :
    runs (regs [(1, 0xF0), (2, 0x3C), (15, 1)]) 0x8122
      (fun t => t.readV 1 == 0x30 && t.readV 15 == 1) = true := by decide

/-- A9: VF unchanged. -/
theorem test_xorReg :
    runs (regs [(1, 0xF0), (2, 0x3C), (15, 1)]) 0x8123
      (fun t => t.readV 1 == 0xCC && t.readV 15 == 1) = true := by decide

/-- A10. -/
theorem test_xorReg_self :
    runs (regs [(1, 0x5A)]) 0x8113
      (fun t => t.readV 1 == 0) = true := by decide

/-- A11 (the source's example). -/
theorem test_addReg :
    runs (regs [(1, 0xFF), (2, 1)]) 0x8124
      (fun t => t.readV 1 == 0 && t.readV 15 == 1) = true := by decide

/-- A15: the result overwrites the carry. -/
theorem test_addReg_vF :
    runs (regs [(15, 0xF0), (2, 0x20)]) 0x8F24
      (fun t => t.readV 15 == 0x10) = true := by decide

/-- A20 (the source's example). -/
theorem test_subReg :
    runs (regs [(1, 5), (2, 0x0A)]) 0x8125
      (fun t => t.readV 1 == 0xFB && t.readV 15 == 0) = true := by decide

/-- A24: the difference is formed after VF took the flag. -/
theorem test_subReg_vF :
    runs (regs [(15, 0x0A), (3, 4)]) 0x8F35
      (fun t => t.readV 15 == 0xFD) = true := by decide

/-- A29: the y register is not used. -/
theorem test_shr :
    runs (regs [(1, 5), (2, 0xFF)]) 0x8126
      (fun t => t.readV 1 == 2 && t.readV 15 == 1 && t.readV 2 == 0xFF) = true := by decide

/-- A32: the flag is written, then shifted out. -/
theorem test_shr_vF :
    runs (regs [(15, 3)]) 0x8F26
      (fun t => t.readV 15 == 0) = true := by decide

/-- A35. -/
theorem test_subn :
    runs (regs [(1, 0x0A), (2, 5)]) 0x8127
      (fun t => t.readV 1 == 0xFB && t.readV 15 == 0) = true := by decide

/-- A39: the minuend is read after VF took the flag. -/
theorem test_subn_vF :
    runs (regs [(1, 2), (15, 9)]) 0x81F7
      (fun t => t.readV 1 == 0xFF && t.readV 15 == 1) = true := by decide

/-- A42: the y register is not used. -/
theorem test_shl :
    runs (regs [(1, 0x81), (2, 0xFF)]) 0x812E
      (fun t => t.readV 1 == 2 && t.readV 15 == 1) = true := by decide

/-- A45: the flag is written, then shifted left. -/
theorem test_shl_vF :
    runs (regs [(15, 0x81)]) 0x8F2E
      (fun t => t.readV 15 == 2) = true := by decide

/-- A48: a zero mask always gives 0, and one byte is consumed. -/
theorem test_rnd_zero_mask : gives (execRnd 3 0x00 State.reset)
    (fun t => t.draws == 1) = true ∧ ∀ r : Byte, r &&& 0x00 = 0 := by
  exact ⟨by decide, by simp⟩

/-- A47: a mask of 0F keeps the low four bits of whatever byte is drawn. -/
theorem test_rnd_mask :
    execRnd 3 0x0F State.reset = .next (State.reset.draw.writeV 3 (Config.randByte 0 0 &&& 0x0F)) ∧
      (0xA7 : Byte) &&& 0x0F = 0x07 := by
  exact ⟨rfl, by decide⟩

/-! ## Index register and memory -/

/-- M2. -/
theorem test_ldI :
    runs State.reset 0xAFFF
      (fun t => t.i == 0x0FFF) = true := by decide

/-- M4: modulo 4096, VF unchanged. -/
theorem test_addI :
    runs (indexAt (regs [(2, 1), (15, 7)]) 0x0FFF) 0xF21E
      (fun t => t.i == 0 && t.readV 15 == 7) = true := by decide

/-- M5. -/
theorem test_addI_past_byte :
    runs (indexAt (regs [(2, 0xFF)]) 0x0100) 0xF21E
      (fun t => t.i == 0x01FF) = true := by decide

/-- M7. -/
theorem test_ldF :
    runs (regs [(0, 5)]) 0xF029
      (fun t => t.i == 0x0069) = true := by decide

/-- M10: the whole byte is used. -/
theorem test_ldF_unmasked :
    runs (regs [(0, 0xFF)]) 0xF029
      (fun t => t.i == 0x054B) = true := by decide

/-- M17. -/
theorem test_ldB :
    runs (indexAt (regs [(4, 0xFF)]) 0x0300) 0xF433
      (fun t => t.memRead 0x300 == 2 && t.memRead 0x301 == 5 && t.memRead 0x302 == 5 && t.memRead 0x303 == 0) = true := by decide

/-- M18: each address is masked. -/
theorem test_ldB_wraps :
    runs (indexAt (regs [(4, 0x7B)]) 0x0FFE) 0xF433
      (fun t => t.memRead 0xFFE == 1 && t.memRead 0xFFF == 2 && t.memRead 0x000 == 3) = true := by decide

/-- M19: both ends included, nothing beyond, `I` unchanged. -/
theorem test_stRegs :
    runs (bytesAt (indexAt (regs [(0, 0x11), (1, 0x22), (2, 0x33), (3, 0x44)]) 0x300) 0x303 [0xEE]) 0xF255
      (fun t => t.memRead 0x300 == 0x11 && t.memRead 0x301 == 0x22 && t.memRead 0x302 == 0x33 &&
        t.memRead 0x303 == 0xEE && t.i == 0x300) = true := by decide

/-- M20: `x` = 0 stores one byte. -/
theorem test_stRegs_one :
    runs (bytesAt (indexAt (regs [(0, 0x11), (1, 0x22)]) 0x300) 0x301 [0xEE]) 0xF055
      (fun t => t.memRead 0x300 == 0x11 && t.memRead 0x301 == 0xEE) = true := by decide

/-- M22. -/
theorem test_ldRegs :
    runs (bytesAt (indexAt (regs [(3, 0x99)]) 0x300) 0x300 [0xDE, 0xAD, 0xBE, 0xEF]) 0xF265
      (fun t => t.readV 0 == 0xDE && t.readV 1 == 0xAD && t.readV 2 == 0xBE && t.readV 3 == 0x99 &&
        t.i == 0x300) = true := by decide

/-- M23, its two ends: V7 from FFF, V8 from 000, VF included. -/
theorem test_ldRegs_wraps :
    runs (bytesAt (indexAt State.reset 0xFF8) 0xFFF [0x17, 0x18, 0x19, 0x1A, 0x1B, 0x1C, 0x1D, 0x1E, 0x1F]) 0xFF65
      (fun t => t.readV 7 == 0x17 && t.readV 8 == 0x18 && t.readV 15 == 0x1F) = true := by decide

/-! ## Timers and keys -/

/-- T1. -/
theorem test_ldVxDT :
    runs (State.reset.setDt 0x2A) 0xF307
      (fun t => t.readV 3 == 0x2A && t.dt == 0x2A) = true := by decide

/-- T2. -/
theorem test_ldDT :
    runs (regs [(0, 3)]) 0xF015
      (fun t => t.dt == 3 && t.st == 0) = true := by decide

/-- T3: the audio signal is on. -/
theorem test_ldST :
    runs (regs [(6, 0x1E)]) 0xF618
      (fun t => t.st == 0x1E && t.tone && t.dt == 0) = true := by decide

/-- T11: no key, `PC` goes back across the wrap. -/
theorem test_ldVxK_waits :
    runs (State.reset.setPc 0xFFFE) 0xF10A
      (fun t => t.pc == 0xFFFE && t.wait && t.readV 1 == 0) = true := by decide

/-- T8. -/
theorem test_ldVxK_lowest :
    runs (press (press State.reset 7) 11) 0xF10A
      (fun t => t.readV 1 == 7 && t.pc == 0x202 && !t.wait) = true := by decide

/-! ## Reset and the host's operations -/

/-- H7: glyphs 0 and F of the font. -/
theorem test_reset_font :
    [0x050, 0x051, 0x052, 0x053, 0x054, 0x09B, 0x09C, 0x09D, 0x09E, 0x09F].map State.reset.memRead
      = [0xF0, 0x90, 0x90, 0x90, 0xF0, 0xF0, 0x80, 0xF0, 0x80, 0x80] := by decide

/-- R35: the bytes on either side of the font are 0. -/
theorem test_reset_beyond_font :
    [0x04F, 0x0A0, 0x200, 0xFFF].map State.reset.memRead = [0, 0, 0, 0] := by decide

/-- T4 and T5: a timer at 0 stays there. -/
theorem test_tick :
    (((State.reset.setDt 1).setSt 2).tickTimers.dt, ((State.reset.setDt 1).setSt 2).tickTimers.st)
      = (0, 1) ∧ (State.reset.setSt 1).tickTimers.dt = 0 ∧ (State.reset.setSt 1).tickTimers.st = 0 := by decide

/-- H1. -/
theorem test_load_rom :
    (State.reset.loadROM [0x12, 0x00]).toOption.map (fun s => (s.memRead 0x200, s.memRead 0x201))
      = some (0x12, 0x00) := by decide

/-- H4: no bytes, no change, no error. -/
theorem test_load_empty_rom :
    State.reset.loadROM [] = .ok State.reset := by decide

/-- H3: 3585 bytes are too large, and nothing changes. -/
theorem test_load_too_large :
    Session.start.apply (.loadROM (List.replicate 3585 0xFF)) = .ok (Session.start, .romTooLarge) := by
  have h : (State.construct 0).loadROM (List.replicate 3585 0xFF) = .error .romTooLarge :=
    if_pos (by rw [List.length_replicate]; decide)
  simp only [Session.apply, Session.start, Session.construct, h, Bool.false_eq_true, if_false]

/-- H5. -/
theorem test_set_key :
    (State.reset.hostSetKey 3 true).keyDown 3 = true ∧ (State.reset.hostSetKey 3 true).keyDown 4 = false := by decide

/-- H6. -/
theorem test_reset_clears_fault :
    (State.reset.raise .stackOverflow).hostReset = State.reset := by decide

/-- `withFetchWord` on a faulted state: the next step runs the word. -/
theorem test_place_word :
    gives (step ((State.reset.raise .stackOverflow).withFetchWord 16 0x6A42))
      (fun t => t.readV 10 == 0x42) = true := by decide

/-! ## Witnesses: the hypotheses of each obligation are met, clause by clause -/

/-- EncodeDecodeRoundTrip: a word that decodes. -/
theorem witness_encode_decode : decodeWord 0xFF65 = .ok (.ldRegs 15) := by decide

/-- DecodeAcceptsExactlyTheOpcodeMap: both sides occur. -/
theorem witness_opcode_map : wellFormedWord 0x00EE = true ∧ wellFormedWord 0x00EF = false := by decide

/-- StepRunsTheDecodedInstruction: a word across the top of memory, no fault latched. -/
theorem witness_step_runs :
    let s := (State.reset.setPc 0xFFFF).placeWord 0xD125
    s.fault = none ∧ decodeWord (s.mem.read (s.pc.toNat % 4096) ++
      s.mem.read ((s.pc + 1).toNat % 4096)) = .ok (.drw 1 2 5) := by decide

/-- UnrecognisedWordIsNoOp: the word 0000 of empty memory. -/
theorem witness_unrecognised : State.reset.fault = none ∧ wellFormedWord State.reset.wordAtPc = false := by
  decide

/-- FaultGateFreezesTheCore, and the last clause of EveryCycleCompletes: both faults latched. -/
theorem witness_fault_gate :
    (State.reset.raise .stackOverflow).fault = some .stackOverflow ∧
    (State.reset.raise .stackUnderflow).fault = some .stackUnderflow ∧
    step (State.reset.raise .stackUnderflow) = .fault .stackUnderflow := by
  exact ⟨rfl, rfl, rfl⟩

/-- A faultless state whose cycle is a call with a full stack. -/
def overflowing : State := { State.reset with sp := 16 }.placeWord 0x2ABC

/-- A faultless state whose cycle is a return with an empty stack. -/
def underflowing : State := State.reset.placeWord 0x00EE

/-- A faultless state whose cycle waits for a key. -/
def waiting : State := State.reset.placeWord 0xF10A

/-- CycleOutcomesAreReported: a recognised word that does not raise, one that does, and one that is
not recognised. -/
theorem witness_outcomes :
    (waiting.fault = none ∧ decodeWord waiting.wordAtPc = .ok (.ldVxK 1) ∧
      (nextOf (step waiting)).fault = none) ∧
    (overflowing.fault = none ∧ (nextOf (step overflowing)).fault = some .stackOverflow) ∧
    (State.reset.fault = none ∧ wellFormedWord State.reset.wordAtPc = false) := by decide

/-- PcAfterEveryInstruction, WaitReportsABlockedKeyWait, FaultsAreRaisedExactlyByStackErrors,
InstructionsWriteOnlyTheirParts and -Registers: each of the three cycles gives a next state. -/
theorem witness_steps :
    (waiting.fault = none ∧ decodeWord waiting.wordAtPc = .ok (.ldVxK 1) ∧
      step waiting = .next (nextOf (step waiting)) ∧ (nextOf (step waiting)).wait = true) ∧
    (overflowing.fault = none ∧ decodeWord overflowing.wordAtPc = .ok (.call 0xABC) ∧
      step overflowing = .next (nextOf (step overflowing))) ∧
    (underflowing.fault = none ∧ decodeWord underflowing.wordAtPc = .ok .ret ∧
      step underflowing = .next (nextOf (step underflowing)) ∧
      (nextOf (step underflowing)).fault = some .stackUnderflow) := by
  exact ⟨⟨rfl, rfl, rfl, rfl⟩, ⟨rfl, rfl, rfl⟩, ⟨rfl, rfl, rfl, rfl⟩⟩

/-- InstructionsWriteOnlyTheirParts and -Registers: a draw gives a next state. -/
theorem witness_exec : exec (.drw 1 2 5) State.reset = .next (nextOf (exec (.drw 1 2 5) State.reset)) := rfl

/-- StepKeepsTheInvariant: a state with the invariant, memory listed and a key wait pending, whose
cycle gives a next state. -/
theorem witness_invariant : (nextOf (step waiting)).Inv ∧
    step (nextOf (step waiting)) = .next (nextOf (step waiting)) := by
  refine ⟨⟨by decide, by decide, by decide, by decide, by decide⟩, rfl⟩

/-- StepKeepsTheInvariant: the faulted states have it too. -/
theorem witness_invariant_faulted :
    (nextOf (step overflowing)).Inv ∧ (nextOf (step underflowing)).Inv := by
  exact ⟨⟨by decide, by decide, by decide, by decide, by decide⟩,
    ⟨by decide, by decide, by decide, by decide, by decide⟩⟩

/-- ReachableStatesSatisfyTheInvariant: a ROM loaded and a cycle run. -/
theorem witness_reachable : ∃ m : Session, m.Reachable ∧ m.cyclesBegun = true := by
  have h1 : Session.start.apply (.loadROM [0x22, 0x00]) =
      .ok (⟨State.reset.memWriteList romBase [0x22, 0x00], false⟩, .done) := by rfl
  refine ⟨_, ((Session.Reachable.start 0).next h1).next (o := .executeCycle) rfl, rfl⟩

/-- ResetLeavesTheTable: addresses on both sides of the font, and the last byte of the last
glyph. -/
theorem witness_reset_table :
    maskAddr 0x004F < 0x50 ∧ 0xA0 ≤ maskAddr 0x00A0 ∧ 0xA0 ≤ maskAddr 0xFFFF ∧ 15 < 16 ∧ 4 < 5 := by
  decide

/-- The state of vector W11: the sprite meets a lit pixel. -/
def colliding : State := light (bytesAt (indexAt (regs [(15, 3), (1, 2)]) 0x300) 0x300 [0x80]) 3 2

/-- DrawXorsTheSpriteOntoTheScreen: a pixel that is on under a sprite bit. -/
theorem witness_draw_collision :
    ∃ c r, colliding.fb.get c r = true ∧ spriteCovers colliding 15 1 1 c r = true :=
  ⟨3, 2, by decide, by decide⟩

/-- DrawXorsTheSpriteOntoTheScreen: a blank screen, where no pixel is on; a sprite bit occurs in
the last column and row all the same. -/
theorem witness_draw_no_collision :
    (∀ c r, State.reset.fb.get c r = true → spriteCovers State.reset 0 1 15 c r = false) ∧
    spriteCovers (bytesAt (indexAt (regs [(1, 0xFF)]) 0x300) 0x300 [0x80]) 1 1 1 63 31 = true := by
  refine ⟨?_, by decide⟩
  intro c r h
  have : State.reset.fb.get c r = false := blankScreen_get c r
  rw [this] at h; cases h

/-- DrawingTwiceRestoresTheScreen: a draw whose position registers are not VF, and one where VF
keeps its value. -/
theorem witness_draw_twice :
    (exec (.drw 1 2 1) colliding = .next (nextOf (exec (.drw 1 2 1) colliding)) ∧
      ((nextOf (exec (.drw 1 2 1) colliding)).readV 1).toNat % 64 = (colliding.readV 1).toNat % 64 ∧
      ((nextOf (exec (.drw 1 2 1) colliding)).readV 2).toNat % 32 = (colliding.readV 2).toNat % 32) ∧
    (exec (.drw 15 15 0) State.reset = .next (nextOf (exec (.drw 15 15 0) State.reset)) ∧
      ((nextOf (exec (.drw 15 15 0) State.reset)).readV 15).toNat % 64 =
        (State.reset.readV 15).toNat % 64) := by
  exact ⟨⟨rfl, by decide, by decide⟩, ⟨rfl, by decide⟩⟩

/-- CallPushesAndJumps: an empty stack, one free entry, and a full stack. -/
theorem witness_call : State.reset.sp.val = (0 : Fin 16).val ∧
    ({ State.reset with sp := 15 } : State).sp.val = (15 : Fin 16).val ∧
    ({ State.reset with sp := 16 } : State).sp.val = 16 := by decide

/-- ReturnPopsIntoPc: one entry, a full stack, and an empty one. -/
theorem witness_return : ({ State.reset with sp := 1 } : State).sp.val = (0 : Fin 16).val + 1 ∧
    ({ State.reset with sp := 16 } : State).sp.val = (15 : Fin 16).val + 1 ∧
    State.reset.sp.val = 0 := by decide

/-- The state of vector S7, at the depth where the call is the sixteenth: a call of 300, which
holds a return. -/
def calling : State := bytesAt ({ State.reset with sp := 15 }.placeWord 0x2300) 0x300 [0x00, 0xEE]

/-- CallThenReturnResumes (S7). -/
theorem witness_call_return : calling.fault = none ∧ calling.sp.val < 16 ∧
    decodeWord calling.wordAtPc = .ok (.call 0x300) ∧
    step calling = .next (nextOf (step calling)) ∧
    decodeWord (nextOf (step calling)).wordAtPc = .ok .ret := by
  exact ⟨rfl, by decide, rfl, rfl, rfl⟩

/-- KeySkipsTestTheSelectedKey: the last key, selected by a byte above 15, pressed and not. -/
theorem witness_key_skips : ((regs [(1, 0xFF)]).readV 1).toNat % 16 = (15 : Fin 16).val ∧
    (press (regs [(1, 0xFF)]) 15).keyDown 15 = true ∧ (regs [(1, 0xFF)]).keyDown 15 = false := by decide

/-- SkipCyclesAdvanceByFourOrTwo: a condition that holds and one that does not. -/
theorem witness_skip_cycles :
    let s := (regs [(10, 0x42)]).placeWord 0x3A42
    let u := (regs [(10, 0x42)]).placeWord 0x4A42
    (s.fault = none ∧ decodeWord s.wordAtPc = .ok (.seByte 10 0x42) ∧
      skipCondition s (.seByte 10 0x42) = some true) ∧
    (u.fault = none ∧ decodeWord u.wordAtPc = .ok (.sneByte 10 0x42) ∧
      skipCondition u (.sneByte 10 0x42) = some false) := by decide

/-- SubtractInEveryAliasingCase and its reverse: the flag of equal and of borrowing operands, and
register pairs for the four aliasing cases; the same pairs serve AddWithCarryOut and
ShiftsByOneInPlace. -/
theorem witness_aliasing :
    (1 : Byte) = (if ((regs [(1, 7), (2, 7)]).readV 2).toNat ≤ ((regs [(1, 7), (2, 7)]).readV 1).toNat
      then 1 else 0) ∧
    (0 : Byte) = (if ((regs [(2, 1)]).readV 2).toNat ≤ ((regs [(2, 1)]).readV 1).toNat then 1 else 0) ∧
    (14 : Reg) ≠ 15 ∧ (0 : Reg) ≠ 15 := by decide

/-- GlyphAddressOfTheWholeByte: the last digit, in a core as constructed. -/
theorem witness_glyph : (regs [(0, 0x0F)]).mem = [] ∧ ((regs [(0, 0x0F)]).readV 0).toNat < 16 := by
  decide

/-- BlockStoreCopiesRegisters and BlockLoadCopiesMemory: the first and the last register of a
block, and one above it. -/
theorem witness_block : (0 : Reg) ≤ 0 ∧ (15 : Reg) ≤ 15 ∧ (14 : Reg) < 15 := by decide

/-- BlockStoreThenLoadRestores: the state right after the store of all sixteen registers. -/
theorem witness_store_load :
    let s := indexAt (regs [(0, 0x11), (15, 0x22)]) 0xFF8
    exec (.stRegs 15) s = .next (nextOf (exec (.stRegs 15) s)) ∧
      (nextOf (exec (.stRegs 15) s)).i = s.i ∧
      ∀ a, (nextOf (exec (.stRegs 15) s)).memRead a = (nextOf (exec (.stRegs 15) s)).memRead a :=
  ⟨rfl, rfl, fun _ => rfl⟩

/-- ReachableStatesSatisfyTheInvariant: an infinite sequence with a load, a key and then cycles for
ever, in which no load comes after a cycle, and its state after a load. -/
theorem witness_infinite_run :
    let ops : Nat → HostOp := fun n =>
      if n = 0 then .loadROM [0x12, 0x00] else if n = 1 then .setKey 3 true else .executeCycle
    (∀ k n bytes, k < n → ops k = .executeCycle → ops n ≠ .loadROM bytes) ∧
      ((Session.construct 7).after ops 1).toOption.map (fun m => m.core.memRead 0x200) = some 0x12 := by
  refine ⟨?_, by decide⟩
  intro k n bytes hk h e
  dsimp only at e
  split at e
  · omega
  · split at e <;> cases e

/-- CoresSideBySideShareNothing: an operation on the second of two cores, and two of them. -/
theorem witness_cores : (∃ b r, (Cores.construct 2).apply 1 (.setKey 3 true) = .ok (b, r)) ∧
    (0 : Fin 2) ≠ 1 := ⟨⟨_, _, rfl⟩, by decide⟩

/-- The state of program P6 before its fourth cycle's effect: `I` at the next instruction. -/
def selfWriting : State := (indexAt (regs [(0, 0x12), (1, 0x08)]) 0x208).setPc 0x208

/-- NextFetchSeesTheStore, its clauses on one byte and on `Fx33`: the last digit (the first) over the
first (second) byte alone, and a store over neither. -/
theorem witness_next_fetch_bytes :
    let s := indexAt (regs [(0, 0x7B)]) 0x206
    let u := indexAt (regs [(0, 0x7B)]) 0x209
    let at208 := fun q : State => nextOf (exec (.ldB 0) (q.setPc 0x208))
    (exec (.ldB 0) (s.setPc 0x208) = .next (at208 s) ∧
      maskAddr (s.i + BitVec.ofNat 16 2) = maskAddr (at208 s).pc ∧
      ∀ j < 3, maskAddr (s.i + BitVec.ofNat 16 j) ≠ maskAddr ((at208 s).pc + 1)) ∧
    (exec (.ldB 0) (u.setPc 0x208) = .next (at208 u) ∧
      maskAddr (u.i + BitVec.ofNat 16 0) = maskAddr ((at208 u).pc + 1) ∧
      ∀ j < 3, maskAddr (u.i + BitVec.ofNat 16 j) ≠ maskAddr (at208 u).pc) ∧
    (exec (.stRegs 0) State.reset = .next (nextOf (exec (.stRegs 0) State.reset)) ∧
      (∀ j ≤ (0 : Reg), maskAddr (State.reset.i + BitVec.ofNat 16 j.val) ≠
        maskAddr (nextOf (exec (.stRegs 0) State.reset)).pc) ∧
      ∀ j ≤ (0 : Reg), maskAddr (State.reset.i + BitVec.ofNat 16 j.val) ≠
        maskAddr ((nextOf (exec (.stRegs 0) State.reset)).pc + 1)) := by
  exact ⟨⟨rfl, by decide, by decide⟩, ⟨rfl, by decide, by decide⟩, ⟨rfl, by decide, by decide⟩⟩

/-- NextFetchSeesTheStore (P6). -/
theorem witness_next_fetch :
    exec (.stRegs 1) selfWriting = .next (nextOf (exec (.stRegs 1) selfWriting)) ∧
    (0 : Reg) ≤ 1 ∧ (1 : Reg) ≤ 1 ∧
    maskAddr (selfWriting.i + BitVec.ofNat 16 0) =
      maskAddr (nextOf (exec (.stRegs 1) selfWriting)).pc ∧
    maskAddr (selfWriting.i + BitVec.ofNat 16 1) =
      maskAddr ((nextOf (exec (.stRegs 1) selfWriting)).pc + 1) := by
  exact ⟨rfl, by decide, by decide, by decide, by decide⟩

/-- AddressesAreModulo4096: two different addresses of one byte. -/
theorem witness_addresses : (0xFFFF : Word).toNat % 4096 = (0x0FFF : Word).toNat % 4096 := by decide

/-- KeyWaitTakesTheLowestKey: the last key alone, two keys, and none. -/
theorem witness_key_wait :
    ((press State.reset 15).keyDown 15 = true ∧ ∀ q < 15, (press State.reset 15).keyDown q = false) ∧
    ((press (press State.reset 7) 11).keyDown 7 = true ∧
      ∀ q < 7, (press (press State.reset 7) 11).keyDown q = false) ∧
    (∀ k, State.reset.keyDown k = false) := by decide

/-- KeyWaitRepeatsWithNoNetChange, and the second clause of KeyWaitTakesTheLowestKey. -/
theorem witness_key_wait_repeats : waiting.fault = none ∧
    decodeWord waiting.wordAtPc = .ok (.ldVxK 1) ∧ ∀ k, waiting.keyDown k = false := by decide

/-- LoadRomCopiesOrTurnsAway: the longest ROM accepted, the shortest turned away, a byte of a ROM,
addresses outside it, and a session whose cycles have begun. -/
theorem witness_load_rom :
    Session.start.cyclesBegun = false ∧ (List.replicate 3584 (0xFF : Byte)).length ≤ 3584 ∧
    3584 < (List.replicate 3585 (0xFF : Byte)).length ∧
    3583 < (List.replicate 3584 (0xFF : Byte)).length ∧
    maskAddr 0x01FF < 0x200 ∧ 0x200 + ([0x12, 0x00] : List Byte).length ≤ maskAddr 0x0202 ∧
    (⟨State.reset, true⟩ : Session).cyclesBegun = true := by
  simp only [List.length_replicate]
  decide

/-- OpcodeAndWaitAreNeverRead. -/
theorem witness_no_fault : (nextOf (step waiting)).fault = none := by decide

/-- SoundTimerIsNeverRead: a cycle that writes the sound timer, and one that does not. -/
theorem witness_sound :
    step ((regs [(6, 0x1E)]).placeWord 0xF618) =
      .next (nextOf (step ((regs [(6, 0x1E)]).placeWord 0xF618))) ∧
    step waiting = .next (nextOf (step waiting)) := ⟨rfl, rfl⟩

/-- PcHighBitsAreInvisible: two states that differ in the upper bits of `PC` and of an entry. -/
theorem witness_pc_high_bits :
    let s : State := { State.reset.push 0 0x0202 with pc := 0x0200 }
    let t : State := { State.reset.push 0 0xF202 with pc := 0x1200 }
    SameUpToPcHighBits s t ∧ step s = .next (nextOf (step s)) := by
  refine ⟨⟨by decide, by decide, rfl⟩, rfl⟩

end Sys2Proof.Tests
end

namespace Sys2Proof.Machine

/-! ## The display instructions (spec/41_display.md) -/

/-- The frame of a framebuffer write (R36), one part of the state at a time. -/
theorem State.sameOutside_setFb (s : State) (f : Framebuffer) :
    SameOutside [.screen] s (s.setFb f) := by
  intro p hp
  cases p with
  | memory => exact s.memRead_setFb f
  | registers => exact s.readV_setFb f
  | stack => exact ⟨s.setFb_sp f, State.stackAt_congr (s.setFb_stack f)⟩
  | keys => exact State.keyDown_congr (s.setFb_key f)
  | status => exact ⟨s.setFb_opcode f, s.setFb_wait f⟩
  | screen => exact absurd (List.mem_singleton_self Part.screen) hp
  | index => exact s.setFb_i f
  | pc => exact s.setFb_pc f
  | delay => exact s.setFb_dt f
  | sound => exact s.setFb_st f
  | fault => exact s.setFb_fault f
  | draws => exact s.setFb_draws f
  | source => exact s.setFb_source f

/-- What `00E0` answers (R120): the state with the blank screen stored. -/
theorem exec_cls (s : State) : exec .cls s = .next (s.setFb blankScreen) := rfl

/-- Settles O21: the next state stores the blank screen, whose pixels are all 0, and a framebuffer
write leaves every other part alone. -/
theorem clearZeroesEveryPixel : Obligations.ClearZeroesEveryPixel := by
  intro s
  exact ⟨s.setFb blankScreen, exec_cls s, blankScreen_get, s.sameOutside_setFb blankScreen⟩

end Sys2Proof.Machine

namespace Sys2Proof.Machine

/-! ## Control flow (spec/42_control_flow.md) -/

/-- The zero extension of a 12-bit address keeps its value (R131). -/
@[simp] theorem toNat_zextAddr (nnn : Addr12) : (zextAddr nnn).toNat = nnn.toNat :=
  BitVec.toNat_setWidth_of_le (by decide)

/-- The frame of a write to `PC` (R24), one part of the state at a time. -/
theorem State.sameOutside_setPc (s : State) (a : Word) :
    SameOutside [.pc] s (s.setPc a) := by
  intro p hp
  cases p with
  | pc => exact absurd (List.mem_singleton_self Part.pc) hp
  | memory => exact s.memRead_setPc a
  | registers => exact s.readV_setPc a
  | stack => exact ⟨s.setPc_sp a, State.stackAt_congr (s.setPc_stack a)⟩
  | screen => exact fun x y => congrArg (fun f => Framebuffer.get f x y) (s.setPc_fb a)
  | keys => exact State.keyDown_congr (s.setPc_key a)
  | status => exact ⟨s.setPc_opcode a, s.setPc_wait a⟩
  | index => exact s.setPc_i a
  | delay => exact s.setPc_dt a
  | sound => exact s.setPc_st a
  | fault => exact s.setPc_fault a
  | draws => exact s.setPc_draws a
  | source => exact s.setPc_source a

/-- What `1nnn` answers (R131): the state with the address, zero extended, in `PC`. -/
theorem exec_jp (nnn : Addr12) (s : State) :
    exec (.jp nnn) s = .next (s.setPc (zextAddr nnn)) := rfl

/-- Settles O24: the next state writes the zero-extended address to `PC`, and a write to `PC` leaves
every other part alone. -/
theorem jumpSetsPc : Obligations.JumpSetsPc := by
  intro nnn s
  exact ⟨s.setPc (zextAddr nnn), exec_jp nnn s, toNat_zextAddr nnn,
    s.sameOutside_setPc (zextAddr nnn)⟩

end Sys2Proof.Machine

namespace Sys2Proof.Machine

/-! ## Conditional skips (spec/43_skip.md) -/

/-- `PC` after `if c: Skip()` (R110, R140). -/
theorem State.skipIf_pc (s : State) (c : Bool) :
    (s.skipIf c).pc = if c then s.pc + 2 else s.pc := by
  rw [s.skipIf_eq c, State.setPc_pc]

/-- The frame of `if c: Skip()`: only `PC` may change (R140). -/
theorem State.sameOutside_skipIf (s : State) (c : Bool) : SameOutside [.pc] s (s.skipIf c) := by
  rw [s.skipIf_eq c]
  exact s.sameOutside_setPc _

/-- What an instruction that answers `if c: Skip()` does, when `c` decides `p` (R140). -/
theorem exec_skips_iff {i : Instr} {s : State} {c : Bool} {p : Prop} [Decidable p]
    (hexec : exec i s = .next (s.skipIf c)) (hc : c = true ↔ p) :
    ∃ t, exec i s = .next t ∧ t.pc = (if p then s.pc + 2 else s.pc) ∧ SameOutside [.pc] s t := by
  refine ⟨s.skipIf c, hexec, ?_, s.sameOutside_skipIf c⟩
  rw [s.skipIf_pc c]
  exact if_congr hc rfl rfl

/-- What `3xkk` answers (R141). -/
theorem exec_seByte (x : Reg) (kk : Byte) (s : State) :
    exec (.seByte x kk) s = .next (s.skipIf (s.readV x == kk)) := rfl

/-- What `4xkk` answers (R142). -/
theorem exec_sneByte (x : Reg) (kk : Byte) (s : State) :
    exec (.sneByte x kk) s = .next (s.skipIf (s.readV x != kk)) := rfl

/-- What `5xy0` answers (R143). -/
theorem exec_seReg (x y : Reg) (s : State) :
    exec (.seReg x y) s = .next (s.skipIf (s.readV x == s.readV y)) := rfl

/-- What `9xy0` answers (R144). -/
theorem exec_sneReg (x y : Reg) (s : State) :
    exec (.sneReg x y) s = .next (s.skipIf (s.readV x != s.readV y)) := rfl

/-- Settles O29: each of the four answers `if c: Skip()`, and its `c` decides the equality of the
two whole values, or its negation. -/
theorem registerSkipsCompareAndSkip : Obligations.RegisterSkipsCompareAndSkip := by
  intro x y kk s
  exact ⟨exec_skips_iff (exec_seByte x kk s) beq_iff_eq,
    exec_skips_iff (exec_sneByte x kk s) bne_iff_ne,
    exec_skips_iff (exec_seReg x y s) beq_iff_eq,
    exec_skips_iff (exec_sneReg x y s) bne_iff_ne⟩

end Sys2Proof.Machine

namespace Sys2Proof.Machine

/-! ## Register and ALU instructions (spec/44_register_alu.md)

Each of them ends in a write to `V[x]`; the flag-writing ones write VF first (R150). What those two
shapes of answer do is said once, and each instruction's answer has one of them. -/

/-- A part that is the same across two changes of state is the same across both. -/
theorem Part.same_trans {s t u : State} {p : Part} (hst : Part.same s t p)
    (htu : Part.same t u p) : Part.same s u p := by
  cases p with
  | memory => exact fun a => (htu a).trans (hst a)
  | registers => exact fun r => (htu r).trans (hst r)
  | stack =>
    obtain ⟨hsp, hentries⟩ := hst
    obtain ⟨hsp', hentries'⟩ := htu
    exact ⟨hsp'.trans hsp, fun k => (hentries' k).trans (hentries k)⟩
  | screen => exact fun x y => (htu x y).trans (hst x y)
  | keys => exact fun k => (htu k).trans (hst k)
  | status =>
    obtain ⟨hopcode, hwait⟩ := hst
    obtain ⟨hopcode', hwait'⟩ := htu
    exact ⟨hopcode'.trans hopcode, hwait'.trans hwait⟩
  | index | pc | delay | sound | fault | draws | source => exact Eq.trans htu hst

/-- Two changes of state that keep every part outside a list keep it together. -/
theorem SameOutside.trans {ps : List Part} {s t u : State} (hst : SameOutside ps s t)
    (htu : SameOutside ps t u) : SameOutside ps s u :=
  fun p hp => Part.same_trans (hst p hp) (htu p hp)

/-- The frame of a register write (R12), one part of the state at a time. -/
theorem State.sameOutside_writeV (s : State) (r : Reg) (b : Byte) :
    SameOutside [.registers] s (s.writeV r b) := by
  intro p hp
  cases p with
  | registers => exact absurd (List.mem_singleton_self Part.registers) hp
  | memory => exact s.memRead_writeV r b
  | stack => exact ⟨s.writeV_sp r b, State.stackAt_congr (s.writeV_stack r b)⟩
  | screen => exact fun x y => congrArg (fun f => Framebuffer.get f x y) (s.writeV_fb r b)
  | keys => exact State.keyDown_congr (s.writeV_key r b)
  | status => exact ⟨s.writeV_opcode r b, s.writeV_wait r b⟩
  | index => exact s.writeV_i r b
  | pc => exact s.writeV_pc r b
  | delay => exact s.writeV_dt r b
  | sound => exact s.writeV_st r b
  | fault => exact s.writeV_fault r b
  | draws => exact s.writeV_draws r b
  | source => exact s.writeV_source r b

/-- A register write changes that register alone (R12, R21). -/
theorem State.sameRegsExcept_writeV (s : State) (r : Reg) (b : Byte) :
    SameRegsExcept [r] s (s.writeV r b) :=
  fun _ hq => s.readV_writeV_ne (List.ne_of_not_mem_cons hq) b

/-- What an instruction that answers one register write does: VF is under the frame too, so it
writes no flag. -/
theorem exec_writesReg {i : Instr} {s : State} {x : Reg} {b : Byte}
    (hexec : exec i s = .next (s.writeV x b)) :
    ∃ t, exec i s = .next t ∧ t.readV x = b ∧
      SameRegsExcept [x] s t ∧ SameOutside [.registers] s t :=
  ⟨s.writeV x b, hexec, s.readV_writeV_self x b, s.sameRegsExcept_writeV x b,
    s.sameOutside_writeV x b⟩

/-- What an instruction that answers a write of the flag to VF and then one of the result to `V[x]`
does: the result stands in every case, the flag unless VF is the destination (R150). -/
theorem exec_writesFlagThenReg {i : Instr} {s : State} {x : Reg} {f b : Byte}
    (hexec : exec i s = .next ((s.writeV vF f).writeV x b)) :
    ∃ t, exec i s = .next t ∧ t.readV x = b ∧ (x ≠ 15 → t.readV 15 = f) ∧
      SameRegsExcept [x, 15] s t ∧ SameOutside [.registers] s t := by
  refine ⟨(s.writeV vF f).writeV x b, hexec, State.readV_writeV_self _ x b, fun hx => ?flag,
    fun q hq => ?regs, (s.sameOutside_writeV vF f).trans (State.sameOutside_writeV _ x b)⟩
  case flag =>
    rw [State.readV_writeV_ne _ hx.symm, s.readV_writeV_self vF f]
  case regs =>
    obtain ⟨hqx, hqF⟩ := List.ne_and_not_mem_of_not_mem_cons hq
    rw [State.readV_writeV_ne _ hqx, s.readV_writeV_ne (List.ne_of_not_mem_cons hqF)]

/-- What an instruction that writes to `V[x]` the combination `f` of the old values' bits does. -/
theorem exec_writesBitwise {i : Instr} {s : State} {x y : Reg} {w : Byte} {f : Bool → Bool → Bool}
    (hexec : exec i s = .next (s.writeV x w))
    (hbits : ∀ b, w.getLsbD b = f ((s.readV x).getLsbD b) ((s.readV y).getLsbD b)) :
    ∃ t, exec i s = .next t ∧
      (∀ b < 8, (t.readV x).getLsbD b = f ((s.readV x).getLsbD b) ((s.readV y).getLsbD b)) ∧
      SameRegsExcept [x] s t ∧ SameOutside [.registers] s t := by
  obtain ⟨t, hnext, hresult, hregs, hframe⟩ := exec_writesReg hexec
  exact ⟨t, hnext, fun b _ => hresult ▸ hbits b, hregs, hframe⟩

/-- The carry is 1 for a sum above 255 and 0 for any other (R157). -/
theorem carryFlag_eq_ite (sum : Nat) : carryFlag sum = if sum > 255 then 1 else 0 :=
  if_congr decide_eq_true_iff rfl rfl

/-- What `6xkk` answers (R151). -/
theorem exec_ldByte (x : Reg) (kk : Byte) (s : State) :
    exec (.ldByte x kk) s = .next (s.writeV x kk) := rfl

/-- What `7xkk` answers (R152). -/
theorem exec_addByte (x : Reg) (kk : Byte) (s : State) :
    exec (.addByte x kk) s = .next (s.writeV x (s.readV x + kk)) := rfl

/-- What `8xy0` answers (R153). -/
theorem exec_ldReg (x y : Reg) (s : State) :
    exec (.ldReg x y) s = .next (s.writeV x (s.readV y)) := rfl

/-- What `8xy1` answers (R154). -/
theorem exec_orReg (x y : Reg) (s : State) :
    exec (.orReg x y) s = .next (s.writeV x (s.readV x ||| s.readV y)) := rfl

/-- What `8xy2` answers (R155). -/
theorem exec_andReg (x y : Reg) (s : State) :
    exec (.andReg x y) s = .next (s.writeV x (s.readV x &&& s.readV y)) := rfl

/-- What `8xy3` answers (R156). -/
theorem exec_xorReg (x y : Reg) (s : State) :
    exec (.xorReg x y) s = .next (s.writeV x (s.readV x ^^^ s.readV y)) := rfl

/-- What `8xy4` answers (R157): both writes take the sum of the old values. -/
theorem exec_addReg (x y : Reg) (s : State) :
    exec (.addReg x y) s =
      .next ((s.writeV vF (carryFlag ((s.readV x).toNat + (s.readV y).toNat))).writeV x
        (BitVec.ofNat 8 ((s.readV x).toNat + (s.readV y).toNat))) := rfl

/-- Settles O34: each of the three answers one register write, of a word whose bits are that
operation of the old bits. -/
theorem bitwiseOperations : Obligations.BitwiseOperations := by
  intro x y s
  exact ⟨exec_writesBitwise (exec_orReg x y s) fun _ => BitVec.getLsbD_or,
    exec_writesBitwise (exec_andReg x y s) fun _ => BitVec.getLsbD_and,
    exec_writesBitwise (exec_xorReg x y s) fun _ => BitVec.getLsbD_xor⟩

/-- Settles O35: the sum is formed before VF takes the carry and is written after it, so it stands
even where VF is an operand or the destination. -/
theorem addWithCarryOut : Obligations.AddWithCarryOut := by
  intro x y s
  obtain ⟨t, hnext, hsum, hcarry, hregs, hframe⟩ := exec_writesFlagThenReg (exec_addReg x y s)
  refine ⟨t, hnext, ?sum, fun hx => (hcarry hx).trans (carryFlag_eq_ite _), hregs, hframe⟩
  case sum =>
    rw [hsum]
    exact BitVec.toNat_ofNat _ 8

/-- Settles O32: each of the two answers one register write, of the byte or of the old `V[y]`. -/
theorem registerLoads : Obligations.RegisterLoads := by
  intro x y kk s
  exact ⟨exec_writesReg (exec_ldByte x kk s), exec_writesReg (exec_ldReg x y s)⟩

/-- Settles O33: the answer is one register write, of the 8-bit sum. -/
theorem addImmediateWraps : Obligations.AddImmediateWraps := by
  intro x kk s
  obtain ⟨t, hnext, hsum, hregs, hframe⟩ := exec_writesReg (exec_addByte x kk s)
  refine ⟨t, hnext, ?sum, hregs, hframe⟩
  case sum =>
    rw [hsum]
    exact BitVec.toNat_add _ kk

end Sys2Proof.Machine

namespace Sys2Proof.Machine

/-! ## Index register and memory (spec/45_index_memory.md) -/

/-- The frame of a write to `I` (R23), one part of the state at a time. -/
theorem State.sameOutside_setI (s : State) (a : Word) : SameOutside [.index] s (s.setI a) := by
  intro p hp
  cases p with
  | index => exact absurd (List.mem_singleton_self Part.index) hp
  | memory => exact s.memRead_setI a
  | registers => exact s.readV_setI a
  | stack => exact ⟨s.setI_sp a, State.stackAt_congr (s.setI_stack a)⟩
  | screen => exact fun x y => congrArg (fun f => Framebuffer.get f x y) (s.setI_fb a)
  | keys => exact State.keyDown_congr (s.setI_key a)
  | status => exact ⟨s.setI_opcode a, s.setI_wait a⟩
  | pc => exact s.setI_pc a
  | delay => exact s.setI_dt a
  | sound => exact s.setI_st a
  | fault => exact s.setI_fault a
  | draws => exact s.setI_draws a
  | source => exact s.setI_source a

/-- The frame of a one-byte store (R12), one part of the state at a time. -/
theorem State.sameOutside_memWrite (s : State) (a : Word) (b : Byte) :
    SameOutside [.memory] s (s.memWrite a b) := by
  intro p hp
  cases p with
  | memory => exact absurd (List.mem_singleton_self Part.memory) hp
  | registers => exact s.readV_memWrite a b
  | stack => exact ⟨s.memWrite_sp a b, State.stackAt_congr (s.memWrite_stack a b)⟩
  | screen => exact fun x y => congrArg (fun f => Framebuffer.get f x y) (s.memWrite_fb a b)
  | keys => exact State.keyDown_congr (s.memWrite_key a b)
  | status => exact ⟨s.memWrite_opcode a b, s.memWrite_wait a b⟩
  | index => exact s.memWrite_i a b
  | pc => exact s.memWrite_pc a b
  | delay => exact s.memWrite_dt a b
  | sound => exact s.memWrite_st a b
  | fault => exact s.memWrite_fault a b
  | draws => exact s.memWrite_draws a b
  | source => exact s.memWrite_source a b

/-! ### Consecutive bytes from an address -/

@[simp] theorem indexed_zero (a : Word) : indexed a 0 = a := BitVec.add_zero a

/-- Fewer than 4096 consecutive addresses name different bytes, also across the top of memory
(R61, R176). -/
theorem maskAddr_indexed_ne (a : Word) {j k : Nat} (hj : j < 4096) (hk : k < 4096) (hjk : j ≠ k) :
    maskAddr (indexed a j) ≠ maskAddr (indexed a k) := by
  rw [maskAddr_eq_mod, maskAddr_eq_mod, indexed, indexed, BitVec.toNat_add, BitVec.toNat_add,
    BitVec.toNat_ofNat, BitVec.toNat_ofNat]
  omega

@[simp] theorem State.memRead_memWrite_self (s : State) (a : Word) (b : Byte) :
    (s.memWrite a b).memRead a = b :=
  (s.memRead_memWrite a a b).trans (if_pos rfl)

/-- A store at one of the consecutive addresses leaves the byte at another one alone. -/
theorem State.memRead_memWrite_indexed_ne (s : State) (a : Word) {j k : Nat} (hj : j < 4096)
    (hk : k < 4096) (hjk : j ≠ k) (b : Byte) :
    (s.memWrite (indexed a k) b).memRead (indexed a j) = s.memRead (indexed a j) :=
  (s.memRead_memWrite _ _ b).trans (if_neg (maskAddr_indexed_ne a hj hk hjk))

/-- A store at one of `n` consecutive addresses leaves the bytes outside them alone. -/
theorem State.sameMemExcept_memWrite (s : State) (a : Word) {k n : Nat} (hk : k < n) (b : Byte) :
    SameMemExcept a n s (s.memWrite (indexed a k) b) :=
  fun c hc => (s.memRead_memWrite _ c b).trans (if_neg (hc k hk))

theorem SameMemExcept.trans {a : Word} {n : Nat} {s t u : State} (hst : SameMemExcept a n s t)
    (htu : SameMemExcept a n t u) : SameMemExcept a n s u :=
  fun c hc => (htu c hc).trans (hst c hc)

/-! ### Loading and advancing `I` -/

/-- What `Annn` answers (R170). -/
theorem exec_ldI (nnn : Addr12) (s : State) :
    exec (.ldI nnn) s = .next (s.setI (zextAddr nnn)) := rfl

/-- What `Fx1E` answers (R171). -/
theorem exec_addI (x : Reg) (s : State) :
    exec (.addI x) s = .next (s.setI ((s.i + zextByte (s.readV x)) &&& 0x0FFF)) := rfl

/-- The zero extension of a byte keeps its value (R10). -/
@[simp] theorem toNat_zextByte (b : Byte) : (zextByte b).toNat = b.toNat :=
  BitVec.toNat_setWidth_of_le (by decide)

/-- The sum under the address mask, as `Fx1E` takes it, is the sum modulo 4096: a carry out of the
16 bits is a multiple of 4096 (R171). -/
theorem maskAddr_add_zextByte (a : Word) (b : Byte) :
    maskAddr (a + zextByte b) = (a.toNat + b.toNat) % 4096 := by
  rw [maskAddr_eq_mod, BitVec.toNat_add, toNat_zextByte]
  exact Nat.mod_mod_of_dvd _ (by decide)

/-- Settles O41: the next state writes the masked sum to `I`, and a write to `I` leaves every other
part alone, VF with the registers. -/
theorem addToIndexWraps : Obligations.AddToIndexWraps := by
  intro x s
  exact ⟨_, exec_addI x s, maskAddr_add_zextByte s.i (s.readV x), s.sameOutside_setI _⟩

/-- Settles O40: the next state writes the zero-extended address to `I`, and a write to `I` leaves
every other part alone. -/
theorem loadIndex : Obligations.LoadIndex := by
  intro nnn s
  exact ⟨s.setI (zextAddr nnn), exec_ldI nnn s, toNat_zextAddr nnn, s.sameOutside_setI _⟩

/-! ### The decimal digits of a byte -/

theorem toNat_bcdHundreds (b : Byte) : (bcdHundreds b).toNat = b.toNat / 100 := by
  rw [bcdHundreds, BitVec.toNat_ofNat]
  omega

theorem toNat_bcdTens (b : Byte) : (bcdTens b).toNat = b.toNat / 10 % 10 := by
  rw [bcdTens, BitVec.toNat_ofNat]
  omega

theorem toNat_bcdOnes (b : Byte) : (bcdOnes b).toNat = b.toNat % 10 := by
  rw [bcdOnes, BitVec.toNat_ofNat]
  omega

/-- What `Fx33` answers (R173): three stores at consecutive addresses from `I`. -/
theorem exec_ldB (x : Reg) (s : State) :
    exec (.ldB x) s = .next (((s.memWrite (indexed s.i 0) (bcdHundreds (s.readV x))).memWrite
      (indexed s.i 1) (bcdTens (s.readV x))).memWrite (indexed s.i 2) (bcdOnes (s.readV x))) := by
  rw [indexed_zero]
  rfl

/-- Each of three stores at consecutive addresses is read back: no later one covers it. -/
theorem State.memRead_three_stores (s : State) (a : Word) (u v w : Byte) :
    let t := ((s.memWrite (indexed a 0) u).memWrite (indexed a 1) v).memWrite (indexed a 2) w
    t.memRead a = u ∧ t.memRead (a + 1) = v ∧ t.memRead (a + 2) = w := by
  intro t
  refine ⟨?first, ?second, State.memRead_memWrite_self _ (indexed a 2) w⟩
  case first =>
    calc t.memRead a
      _ = t.memRead (indexed a 0) := by rw [indexed_zero]
      _ = ((s.memWrite (indexed a 0) u).memWrite (indexed a 1) v).memRead (indexed a 0) :=
        State.memRead_memWrite_indexed_ne _ a (by decide) (by decide) (by decide) w
      _ = (s.memWrite (indexed a 0) u).memRead (indexed a 0) :=
        State.memRead_memWrite_indexed_ne _ a (by decide) (by decide) (by decide) v
      _ = u := s.memRead_memWrite_self (indexed a 0) u
  case second =>
    calc t.memRead (indexed a 1)
      _ = ((s.memWrite (indexed a 0) u).memWrite (indexed a 1) v).memRead (indexed a 1) :=
        State.memRead_memWrite_indexed_ne _ a (by decide) (by decide) (by decide) w
      _ = v := State.memRead_memWrite_self _ (indexed a 1) v

/-- Settles O43: the three stores are at different bytes, so each digit is read back, and a store
leaves the other bytes and every other part alone. -/
theorem bcdStoresThreeDigits : Obligations.BcdStoresThreeDigits := by
  intro x s
  obtain ⟨hhundreds, htens, hones⟩ := s.memRead_three_stores s.i (bcdHundreds (s.readV x))
    (bcdTens (s.readV x)) (bcdOnes (s.readV x))
  refine ⟨_, exec_ldB x s, ?hundreds, ?tens, ?ones, ?bytes, ?frame⟩
  case hundreds => rw [hhundreds, toNat_bcdHundreds]
  case tens => rw [htens, toNat_bcdTens]
  case ones => rw [hones, toNat_bcdOnes]
  case bytes =>
    exact ((s.sameMemExcept_memWrite s.i (by decide) _).trans
      (State.sameMemExcept_memWrite _ s.i (by decide) _)).trans
      (State.sameMemExcept_memWrite _ s.i (by decide) _)
  case frame =>
    exact ((s.sameOutside_memWrite _ _).trans (State.sameOutside_memWrite _ _ _)).trans
      (State.sameOutside_memWrite _ _ _)

end Sys2Proof.Machine

namespace Sys2Proof.Machine

/-! ## Reading and writing the timers (spec/46_timer_key.md) -/

/-- The frame of a write to `DT` (R28), one part of the state at a time. -/
theorem State.sameOutside_setDt (s : State) (b : Byte) : SameOutside [.delay] s (s.setDt b) := by
  intro p hp
  cases p with
  | delay => exact absurd (List.mem_singleton_self Part.delay) hp
  | stack => exact ⟨s.setDt_sp b, State.stackAt_congr (s.setDt_stack b)⟩
  | keys => exact State.keyDown_congr (s.setDt_key b)
  | memory | registers | index | pc | sound | screen | status | fault | draws | source =>
    simp [Part.same]

/-- The frame of a write to `ST` (R29), one part of the state at a time. -/
theorem State.sameOutside_setSt (s : State) (b : Byte) : SameOutside [.sound] s (s.setSt b) := by
  intro p hp
  cases p with
  | sound => exact absurd (List.mem_singleton_self Part.sound) hp
  | stack => exact ⟨s.setSt_sp b, State.stackAt_congr (s.setSt_stack b)⟩
  | keys => exact State.keyDown_congr (s.setSt_key b)
  | memory | registers | index | pc | delay | screen | status | fault | draws | source =>
    simp [Part.same]

/-- What `Fx07` answers (R180). -/
theorem exec_ldVxDT (x : Reg) (s : State) :
    exec (.ldVxDT x) s = .next (s.writeV x s.dt) := rfl

/-- What `Fx15` answers (R182). -/
theorem exec_ldDT (x : Reg) (s : State) :
    exec (.ldDT x) s = .next (s.setDt (s.readV x)) := rfl

/-- What `Fx18` answers (R183). -/
theorem exec_ldST (x : Reg) (s : State) :
    exec (.ldST x) s = .next (s.setSt (s.readV x)) := rfl

/-- Settles O49: `Fx07` answers one register write, `Fx15` and `Fx18` one write of a timer, and each
of these writes leaves every other part alone. -/
theorem timerMoves : Obligations.TimerMoves := by
  intro x s
  exact ⟨exec_writesReg (exec_ldVxDT x s),
    ⟨_, exec_ldDT x s, s.setDt_dt (s.readV x), s.sameOutside_setDt (s.readV x)⟩,
    ⟨_, exec_ldST x s, s.setSt_st (s.readV x), s.sameOutside_setSt (s.readV x)⟩⟩

end Sys2Proof.Machine

namespace Sys2Proof.Machine

/-! ## The host's key operation (spec/60_exceptions.md) -/

/-- What `SetKey(k, b)` answers (R204): one keypad write, from every session. -/
theorem Session.apply_setKey (m : Session) (k : Fin 16) (b : Bool) :
    m.apply (.setKey k b) = .ok (⟨m.core.setKey k b, m.cyclesBegun⟩, .done) := rfl

/-- A keypad write sets its key. -/
theorem State.keyDown_setKey_self (s : State) (k : Fin 16) (b : Bool) :
    (s.setKey k b).keyDown k = b := by
  rw [State.keyDown_setKey, if_pos rfl]

/-- A keypad write leaves every other key as it was. -/
theorem State.keyDown_setKey_of_ne (s : State) {k q : Fin 16} (b : Bool) (h : q ≠ k) :
    (s.setKey k b).keyDown q = s.keyDown q := by
  rw [State.keyDown_setKey, if_neg h]

/-- The frame of a keypad write (R204), one part of the state at a time. -/
theorem State.sameOutside_setKey (s : State) (k : Fin 16) (b : Bool) :
    SameOutside [.keys] s (s.setKey k b) := by
  intro p hp
  cases p with
  | keys => exact absurd (List.mem_singleton_self Part.keys) hp
  | stack => exact ⟨s.setKey_sp k b, State.stackAt_congr (s.setKey_stack k b)⟩
  | memory | registers | index | pc | delay | sound | screen | status | fault | draws | source =>
    simp [Part.same]

/-- Settles O52: `SetKey` answers one keypad write, which sets its key, keeps the others and leaves
every other part alone. -/
theorem setKeyChangesOneKey : Obligations.SetKeyChangesOneKey := by
  intro m k b
  exact ⟨_, m.apply_setKey k b, m.core.keyDown_setKey_self k b,
    fun _ hq => m.core.keyDown_setKey_of_ne b hq, m.core.sameOutside_setKey k b⟩

end Sys2Proof.Machine

namespace Sys2Proof.Machine

/-! ## The first fetch after reset (spec/70_reset_and_hazards.md)

Fetch alone writes `OPCODE` (R30): every handler answers a next state and keeps it, so a cycle
without a latched fault ends with the word it fetched. -/

/-- A loop keeps `OPCODE` when its body does. -/
theorem State.foldl_opcode {body : State → Nat → State}
    (hbody : ∀ s k, (body s k).opcode = s.opcode) (s : State) (ks : List Nat) :
    (ks.foldl body s).opcode = s.opcode := by
  induction ks generalizing s with
  | nil => rfl
  | cons k ks ih => exact (ih (body s k)).trans (hbody s k)

@[simp] theorem State.skipIf_opcode (s : State) (c : Bool) : (s.skipIf c).opcode = s.opcode := by
  rw [s.skipIf_eq c, State.setPc_opcode]

/-- A return keeps `OPCODE`, with an entry to pop and without one (R130, R191). -/
theorem execRet_opcode (s : State) : ∃ t, execRet s = .next t ∧ t.opcode = s.opcode := by
  unfold execRet
  split
  case isTrue hempty => exact ⟨_, rfl, s.raise_opcode .stackUnderflow⟩
  case isFalse hentry => exact ⟨_, rfl, by rw [State.setPc_opcode, State.pop_opcode]⟩

/-- A call keeps `OPCODE`, with a free entry and with a full stack (R132, R190). -/
theorem execCall_opcode (nnn : Addr12) (s : State) :
    ∃ t, execCall nnn s = .next t ∧ t.opcode = s.opcode := by
  unfold execCall
  split
  case isTrue hfull => exact ⟨_, rfl, s.raise_opcode .stackOverflow⟩
  case isFalse hfree => exact ⟨_, rfl, by rw [State.setPc_opcode, State.push_opcode]⟩

/-- A key wait keeps `OPCODE`, with a key pressed and with none (R181). -/
theorem execLdVxK_opcode (x : Reg) (s : State) :
    ∃ t, execLdVxK x s = .next t ∧ t.opcode = s.opcode := by
  unfold execLdVxK
  split
  next k hpressed => exact ⟨_, rfl, s.writeV_opcode x (keyByte k)⟩
  next hnone => exact ⟨_, rfl, by rw [State.setPc_opcode, State.setWait_opcode]⟩

/-- Every handler answers a next state and keeps `OPCODE` (R30): by the branches of the three
handlers that have some, by the skip, by the loops of the block moves, and for the other
instructions because the answer is a fixed sequence of writes to other fields. -/
theorem exec_opcode (i : Instr) (s : State) : ∃ t, exec i s = .next t ∧ t.opcode = s.opcode := by
  cases i with
  | ret => exact execRet_opcode s
  | call nnn => exact execCall_opcode nnn s
  | ldVxK x => exact execLdVxK_opcode x s
  | seByte | sneByte | seReg | sneReg | skp | sknp => exact ⟨_, rfl, s.skipIf_opcode _⟩
  | stRegs x => exact ⟨_, rfl, State.foldl_opcode (fun t _ => t.memWrite_opcode _ _) s _⟩
  | ldRegs x => exact ⟨_, rfl, State.foldl_opcode (fun t _ => t.writeV_opcode _ _) s _⟩
  | cls | jp | ldByte | addByte | ldReg | orReg | andReg | xorReg | addReg | subReg | shr | subn
  | shl | ldI | jpV0 | rnd | drw | ldVxDT | ldDT | ldST | addI | ldF | ldB => exact ⟨_, rfl, rfl⟩

/-- Decode and dispatch answer a next state and keep `OPCODE`, whether or not the word is an
instruction (R102 to R104). -/
theorem dispatchFetched_opcode (s : State) :
    ∃ t, dispatchFetched s = .next t ∧ t.opcode = s.opcode := by
  unfold dispatchFetched
  split
  next i hdecoded => exact exec_opcode i s
  next e hrefused => exact ⟨s, rfl, rfl⟩

/-- Without a latched fault a cycle is fetch, then decode and dispatch (R107). -/
theorem step_of_fault_eq_none {s : State} (hfault : s.fault = none) :
    step s = dispatchFetched (fetch s) := by
  rw [step, faultGate, hfault]

/-- Without a latched fault a cycle completes with the word at `PC` in `OPCODE` (R101). -/
theorem step_opcode {s : State} (hfault : s.fault = none) :
    ∃ t, step s = .next t ∧ t.opcode = s.wordAtPc := by
  obtain ⟨t, hnext, hopcode⟩ := dispatchFetched_opcode (fetch s)
  exact ⟨t, (step_of_fault_eq_none hfault).trans hnext, hopcode.trans (fetch_opcode s)⟩

/-- What fetch reads, masked address by masked address (R65, R101). -/
theorem State.wordAtPc_eq_append (s : State) :
    s.wordAtPc = s.mem.read (maskAddr s.pc) ++ s.mem.read (maskAddr (s.pc + 1)) := rfl

/-- With `PC` as reset leaves it, the word at `PC` is the two bytes at the entry point (R221). -/
theorem wordAtPc_reset_with_mem (m : Memory) :
    ({ State.reset with mem := m } : State).wordAtPc = m.read 0x200 ++ m.read 0x201 := by
  have hhigh : maskAddr State.reset.pc = 0x200 := by decide
  have hlow : maskAddr (State.reset.pc + 1) = 0x201 := by decide
  rw [State.wordAtPc_eq_append, hhigh, hlow]

/-- Settles O15: no fault is latched at reset, so the first cycle completes with the word at `PC`
in `OPCODE`, and `PC` is the entry point. -/
theorem firstFetchIsAtEntryPoint : Obligations.FirstFetchIsAtEntryPoint := by
  intro m
  obtain ⟨t, hnext, hopcode⟩ := step_opcode (s := { State.reset with mem := m }) rfl
  exact ⟨t, hnext, hopcode.trans (wordAtPc_reset_with_mem m)⟩

end Sys2Proof.Machine

namespace Sys2Proof

/-! ## Decoding and encoding (spec/30_encoding.md) -/

/-! ### A word is the one its fields make -/

theorem wordNNN_fields {w : Word} {t : BitVec 4} (ht : (fieldT w).val = t.toNat) :
    wordNNN t (fieldNNN w) = w := by
  have := w.isLt
  rw [fieldT_val] at ht
  apply BitVec.eq_of_toNat_eq
  rw [toNat_wordNNN, fieldNNN_toNat]
  omega

theorem wordXKK_fields {w : Word} {t : BitVec 4} (ht : (fieldT w).val = t.toNat) :
    wordXKK t (fieldX w) (fieldKK w) = w := by
  have := w.isLt
  rw [fieldT_val] at ht
  apply BitVec.eq_of_toNat_eq
  rw [toNat_wordXKK, fieldX_val, fieldKK_toNat]
  omega

theorem wordXYN_fields {w : Word} {t : BitVec 4} (ht : (fieldT w).val = t.toNat) :
    wordXYN t (fieldX w) (fieldY w) (fieldN w) = w := by
  have := w.isLt
  rw [fieldT_val] at ht
  apply BitVec.eq_of_toNat_eq
  rw [toNat_wordXYN, fieldX_val, fieldY_val, fieldN_val]
  omega

/-- Format XSS: the bottom byte is fixed. -/
theorem wordXSS_fields {w : Word} {t : BitVec 4} {kk : Byte} (ht : (fieldT w).val = t.toNat)
    (hkk : fieldKK w = kk) : wordXKK t (fieldX w) kk = w :=
  hkk ▸ wordXKK_fields ht

/-- Format XYS: the bottom nibble is fixed. -/
theorem wordXYS_fields {w : Word} {t : BitVec 4} {n : Fin 16} (ht : (fieldT w).val = t.toNat)
    (hn : fieldN w = n) : wordXYN t (fieldX w) (fieldY w) n = w :=
  hn ▸ wordXYN_fields ht

/-! ### What the decoder can answer -/

/-- The two answers a decoder may give for a word: an instruction with that very word, or the
rejection that names it (R85, R87). -/
inductive DecoderAnswer (w : Word) : Except DecodeError Instr → Prop
  | ok {i : Instr} (h : encode i = w) : DecoderAnswer w (.ok i)
  | unrecognised : DecoderAnswer w (.error (.unrecognised w))

theorem decodeFamily0_answer (w : Word) : DecoderAnswer w (decodeFamily0 w) := by
  unfold decodeFamily0
  split_ifs with hcls hret
  · exact .ok hcls.symm
  · exact .ok hret.symm
  · exact .unrecognised

theorem decodeFamily8_answer {w : Word} (ht : (fieldT w).val = 0x8) :
    DecoderAnswer w (decodeFamily8 w) := by
  unfold decodeFamily8
  split
  case h_10 => exact .unrecognised
  all_goals
    rename_i hn
    exact .ok (wordXYS_fields ht (Fin.ext hn))

theorem decodeFamilyE_answer {w : Word} (ht : (fieldT w).val = 0xE) :
    DecoderAnswer w (decodeFamilyE w) := by
  unfold decodeFamilyE
  split_ifs with hskp hsknp
  · exact .ok (wordXSS_fields ht hskp)
  · exact .ok (wordXSS_fields ht hsknp)
  · exact .unrecognised

theorem decodeFamilyF_answer {w : Word} (ht : (fieldT w).val = 0xF) :
    DecoderAnswer w (decodeFamilyF w) := by
  unfold decodeFamilyF
  split_ifs
  case neg => exact .unrecognised
  all_goals exact .ok (wordXSS_fields ht ‹_›)

theorem decodeWord_answer (w : Word) : DecoderAnswer w (decodeWord w) := by
  unfold decodeWord
  split
  case h_1 => exact decodeFamily0_answer w
  case h_2 ht | h_3 ht | h_11 ht | h_12 ht => exact .ok (wordNNN_fields ht)
  case h_4 ht | h_5 ht | h_7 ht | h_8 ht | h_13 ht => exact .ok (wordXKK_fields ht)
  case h_6 ht | h_10 ht =>
    split_ifs with hn
    · exact .ok (wordXYS_fields ht hn)
    · exact .unrecognised
  case h_9 ht => exact decodeFamily8_answer ht
  case h_14 ht => exact .ok (wordXYN_fields ht)
  case h_15 ht => exact decodeFamilyE_answer ht
  case h_16 =>
    simp only [imp_false] at *
    have hlt := (fieldT w).isLt
    exact decodeFamilyF_answer (by omega)

/-- Decoding drops no bit. -/
theorem encode_of_decodeWord {w : Word} {i : Instr} (h : decodeWord w = .ok i) : encode i = w := by
  have hanswer := decodeWord_answer w
  rw [h] at hanswer
  cases hanswer with
  | ok hw => exact hw

/-- The decoder rejects a word by that word's name. -/
theorem eq_unrecognised_of_decodeWord {w : Word} {e : DecodeError} (h : decodeWord w = .error e) :
    e = .unrecognised w := by
  have hanswer := decodeWord_answer w
  rw [h] at hanswer
  cases hanswer with
  | unrecognised => rfl

theorem decodeWord_encode (i : Instr) : decodeWord (encode i) = .ok i := by
  cases i with
  | cls | ret => rfl
  | jp | call | ldI | jpV0 | seByte | sneByte | ldByte | addByte | rnd | seReg | sneReg | drw =>
    simp [encode, decodeWord]
  | ldReg | orReg | andReg | xorReg | addReg | subReg | shr | subn | shl =>
    simp [encode, decodeWord, decodeFamily8]
  | skp | sknp => simp [encode, decodeWord, decodeFamilyE]
  | ldVxDT | ldVxK | ldDT | ldST | addI | ldF | ldB | stRegs | ldRegs =>
    simp [encode, decodeWord, decodeFamilyF]

/-! ### The opcode map -/

/-- The word of every instruction selects a row of the opcode map. -/
theorem wellFormedWord_encode (i : Instr) : wellFormedWord (encode i) = true := by
  cases i with
  | cls => exact Laws.EncodeSelectsRow.cls
  | ret => exact Laws.EncodeSelectsRow.ret
  | jp nnn => exact Laws.EncodeSelectsRow.jp nnn
  | call nnn => exact Laws.EncodeSelectsRow.call nnn
  | seByte x kk => exact Laws.EncodeSelectsRow.seByte x kk
  | sneByte x kk => exact Laws.EncodeSelectsRow.sneByte x kk
  | seReg x y => exact Laws.EncodeSelectsRow.seReg x y
  | ldByte x kk => exact Laws.EncodeSelectsRow.ldByte x kk
  | addByte x kk => exact Laws.EncodeSelectsRow.addByte x kk
  | ldReg x y => exact Laws.EncodeSelectsRow.ldReg x y
  | orReg x y => exact Laws.EncodeSelectsRow.orReg x y
  | andReg x y => exact Laws.EncodeSelectsRow.andReg x y
  | xorReg x y => exact Laws.EncodeSelectsRow.xorReg x y
  | addReg x y => exact Laws.EncodeSelectsRow.addReg x y
  | subReg x y => exact Laws.EncodeSelectsRow.subReg x y
  | shr x y => exact Laws.EncodeSelectsRow.shr x y
  | subn x y => exact Laws.EncodeSelectsRow.subn x y
  | shl x y => exact Laws.EncodeSelectsRow.shl x y
  | sneReg x y => exact Laws.EncodeSelectsRow.sneReg x y
  | ldI nnn => exact Laws.EncodeSelectsRow.ldI nnn
  | jpV0 nnn => exact Laws.EncodeSelectsRow.jpV0 nnn
  | rnd x kk => exact Laws.EncodeSelectsRow.rnd x kk
  | drw x y n => exact Laws.EncodeSelectsRow.drw x y n
  | skp x => exact Laws.EncodeSelectsRow.skp x
  | sknp x => exact Laws.EncodeSelectsRow.sknp x
  | ldVxDT x => exact Laws.EncodeSelectsRow.ldVxDT x
  | ldVxK x => exact Laws.EncodeSelectsRow.ldVxK x
  | ldDT x => exact Laws.EncodeSelectsRow.ldDT x
  | ldST x => exact Laws.EncodeSelectsRow.ldST x
  | addI x => exact Laws.EncodeSelectsRow.addI x
  | ldF x => exact Laws.EncodeSelectsRow.ldF x
  | ldB x => exact Laws.EncodeSelectsRow.ldB x
  | stRegs x => exact Laws.EncodeSelectsRow.stRegs x
  | ldRegs x => exact Laws.EncodeSelectsRow.ldRegs x

/-- The family digit lies under each mask of the opcode map. -/
theorem fieldT_and (w m : Word) (hm : m.extractLsb' 12 4 = BitVec.allOnes 4) :
    fieldT (w &&& m) = fieldT w := by
  rw [fieldT, BitVec.extractLsb'_and, hm, BitVec.and_allOnes, fieldT]

theorem fieldN_and (w m : Word) (hm : m.extractLsb' 0 4 = BitVec.allOnes 4) :
    fieldN (w &&& m) = fieldN w := by
  rw [fieldN, BitVec.extractLsb'_and, hm, BitVec.and_allOnes, fieldN]

theorem fieldKK_and (w m : Word) (hm : m.extractLsb' 0 8 = BitVec.allOnes 8) :
    fieldKK (w &&& m) = fieldKK w := by
  rw [fieldKK, BitVec.extractLsb'_and, hm, BitVec.and_allOnes, fieldKK]

/-- The family digits whose every word is an instruction: the rows of mask `0xF000` (R86). -/
def wholeFamilies : List (Fin 16) := [0x1, 0x2, 0x3, 0x4, 0x6, 0x7, 0xA, 0xB, 0xC, 0xD]

/-- The family digits and bottom nibbles of the rows of mask `0xF00F` (R86). -/
def nibbleRows : List (Fin 16 × Fin 16) :=
  [(0x5, 0), (0x8, 0), (0x8, 1), (0x8, 2), (0x8, 3), (0x8, 4), (0x8, 5), (0x8, 6), (0x8, 7),
   (0x8, 0xE), (0x9, 0)]

/-- The family digits and bottom bytes of the rows of mask `0xF0FF` (R86). -/
def byteRows : List (Fin 16 × Byte) :=
  [(0xE, 0x9E), (0xE, 0xA1), (0xF, 0x07), (0xF, 0x0A), (0xF, 0x15), (0xF, 0x18), (0xF, 0x1E),
   (0xF, 0x29), (0xF, 0x33), (0xF, 0x55), (0xF, 0x65)]

/-- The rows of the opcode map by their masks. -/
theorem opTable_rows : ∀ r ∈ opTable,
    r.mask = 0xFFFF ∧ r.pattern ∈ [encode .cls, encode .ret] ∨
    r.mask = 0xF000 ∧ fieldT r.pattern ∈ wholeFamilies ∨
    r.mask = 0xF00F ∧ (fieldT r.pattern, fieldN r.pattern) ∈ nibbleRows ∨
    r.mask = 0xF0FF ∧ (fieldT r.pattern, fieldKK r.pattern) ∈ byteRows := by decide

theorem decodes_of_wholeFamily {w : Word} (h : fieldT w ∈ wholeFamilies) :
    ∃ i, decodeWord w = .ok i := by
  simp only [wholeFamilies, List.mem_cons, List.not_mem_nil, or_false] at h
  rcases h with h | h | h | h | h | h | h | h | h | h <;> simp [decodeWord, h]

theorem decodes_of_nibbleRow {w : Word} (h : (fieldT w, fieldN w) ∈ nibbleRows) :
    ∃ i, decodeWord w = .ok i := by
  simp only [nibbleRows, List.mem_cons, List.not_mem_nil, or_false, Prod.mk.injEq] at h
  rcases h with h | h | h | h | h | h | h | h | h | h | h <;>
    simp [decodeWord, decodeFamily8, h]

theorem decodes_of_byteRow {w : Word} (h : (fieldT w, fieldKK w) ∈ byteRows) :
    ∃ i, decodeWord w = .ok i := by
  simp only [byteRows, List.mem_cons, List.not_mem_nil, or_false, Prod.mk.injEq] at h
  rcases h with h | h | h | h | h | h | h | h | h | h | h <;>
    simp [decodeWord, decodeFamilyE, decodeFamilyF, h]

/-- A word some row of the opcode map selects decodes: the bits under the row's mask are the digits
the decoder looks at. -/
theorem decodes_of_wellFormedWord {w : Word} (h : wellFormedWord w = true) :
    ∃ i, decodeWord w = .ok i := by
  obtain ⟨⟨m, p⟩, hr, hsel⟩ := List.any_eq_true.mp h
  obtain rfl : w &&& m = p := beq_iff_eq.mp hsel
  have hrows := opTable_rows _ hr
  dsimp only at hrows
  rcases hrows with ⟨rfl, hrow⟩ | ⟨rfl, hrow⟩ | ⟨rfl, hrow⟩ | ⟨rfl, hrow⟩
  · have hw : w &&& 0xFFFF = w := BitVec.and_allOnes
    rw [hw, List.mem_pair] at hrow
    rcases hrow with rfl | rfl
    · exact ⟨_, decodeWord_encode .cls⟩
    · exact ⟨_, decodeWord_encode .ret⟩
  · rw [fieldT_and w 0xF000 (by decide)] at hrow
    exact decodes_of_wholeFamily hrow
  · rw [fieldT_and w 0xF00F (by decide), fieldN_and w 0xF00F (by decide)] at hrow
    exact decodes_of_nibbleRow hrow
  · rw [fieldT_and w 0xF0FF (by decide), fieldKK_and w 0xF0FF (by decide)] at hrow
    exact decodes_of_byteRow hrow

theorem wellFormedWord_iff {w : Word} : wellFormedWord w = true ↔ ∃ i, decodeWord w = .ok i :=
  ⟨decodes_of_wellFormedWord, fun ⟨i, h⟩ => encode_of_decodeWord h ▸ wellFormedWord_encode i⟩

theorem wellFormedWord_eq_false_iff {w : Word} :
    wellFormedWord w = false ↔ decodeWord w = .error (.unrecognised w) := by
  rw [← Bool.not_eq_true, wellFormedWord_iff]
  cases hdecode : decodeWord w with
  | ok i => simp
  | error e => simp [eq_unrecognised_of_decodeWord hdecode]

/-- Two rows that select one word agree where both masks have a bit. -/
theorem OpRow.and_mask_eq {r q : OpRow} {w : Word} (hr : r.selects w = true)
    (hq : q.selects w = true) : r.pattern &&& q.mask = q.pattern &&& r.mask := by
  rw [← beq_iff_eq.mp hr, ← beq_iff_eq.mp hq, BitVec.and_assoc, BitVec.and_assoc,
    BitVec.and_comm r.mask]

/-- Any two rows of the opcode map differ in a bit that both compare. -/
theorem opTable_patterns_differ :
    opTable.Pairwise (fun r q => r.pattern &&& q.mask ≠ q.pattern &&& r.mask) := by decide

/-- Settles O1: the fields of a format are read back, and they select the decoder's branch. -/
theorem decodeEncodeRoundTrip : Obligations.DecodeEncodeRoundTrip := decodeWord_encode

/-- Settles O2: in each branch of the decoder the digits it compared and the fields it took make up
the word. -/
theorem encodeDecodeRoundTrip : Obligations.EncodeDecodeRoundTrip :=
  fun _ _ => encode_of_decodeWord

/-- Settles O3: the words that decode are those of the instructions, each of which selects a row,
and the digits under a row's mask select a branch of the decoder. -/
theorem decodeAcceptsExactlyTheOpcodeMap : Obligations.DecodeAcceptsExactlyTheOpcodeMap :=
  fun _ => ⟨wellFormedWord_iff.symm, wellFormedWord_eq_false_iff.symm⟩

/-- Settles O4: a word selected by two rows makes their patterns agree under both masks, which no
two patterns of the map do. -/
theorem opcodeMapRowsDisjoint : Obligations.OpcodeMapRowsDisjoint :=
  fun _ => opTable_patterns_differ.imp fun hdiffer ⟨hr, hq⟩ => hdiffer (OpRow.and_mask_eq hr hq)

/-- Settles O5: each of the nine words is evaluated by the decoder. -/
theorem specWordsDecode : Obligations.SpecWordsDecode := by
  unfold Obligations.SpecWordsDecode
  decide

end Sys2Proof

namespace Sys2Proof.Machine

/-! ## The cycle (spec/40_fetch_decode_dispatch.md)

What a step answers in each of its three cases, and what follows for any step that answers a next
state. -/

/-- With a fault latched the gate stops the cycle (R105). -/
theorem step_of_fault_eq_some {s : State} {f : Fault} (hfault : s.fault = some f) :
    step s = .fault f := by
  rw [step, faultGate, hfault]

/-- A recognised word runs its handler from the state fetch left (R103). -/
theorem step_of_decodes {s : State} {i : Instr} (hfault : s.fault = none)
    (hdecode : decodeWord s.wordAtPc = .ok i) : step s = exec i (fetch s) := by
  rw [step_of_fault_eq_none hfault, dispatchFetched, fetch_opcode, hdecode]

/-- A word no row of the opcode map selects leaves what fetch left (R104). -/
theorem step_of_unrecognised {s : State} (hfault : s.fault = none)
    (hword : wellFormedWord s.wordAtPc = false) : step s = .next (fetch s) := by
  rw [step_of_fault_eq_none hfault, dispatchFetched, fetch_opcode,
    wellFormedWord_eq_false_iff.mp hword, execUnrecognised]

/-- A step that answers a next state got past the fault gate. -/
theorem fault_eq_none_of_step_next {s t : State} (hstep : step s = .next t) : s.fault = none := by
  cases hfault : s.fault with
  | none => rfl
  | some f => rw [step_of_fault_eq_some hfault] at hstep; cases hstep

/-- What a step that answers a next state can have done: run the handler of a recognised word, or
only fetched (R103, R104). -/
theorem step_cases {s t : State} (hstep : step s = .next t) :
    (∃ i, decodeWord s.wordAtPc = .ok i ∧ exec i (fetch s) = .next t) ∨
      wellFormedWord s.wordAtPc = false ∧ t = fetch s := by
  have hfault := fault_eq_none_of_step_next hstep
  cases hword : wellFormedWord s.wordAtPc with
  | true =>
    obtain ⟨i, hdecode⟩ := decodes_of_wellFormedWord hword
    exact .inl ⟨i, hdecode, (step_of_decodes hfault hdecode).symm.trans hstep⟩
  | false =>
    rw [step_of_unrecognised hfault hword] at hstep
    cases hstep
    exact .inr ⟨rfl, rfl⟩

/-! ### The frames of the updates -/

/-- A wider list of parts frames less. -/
theorem SameOutside.mono {ps qs : List Part} {s t : State} (h : SameOutside ps s t)
    (hsub : ∀ p ∈ ps, p ∈ qs) : SameOutside qs s t :=
  fun p hp => h p (mt (hsub p) hp)

theorem SameOutside.refl (ps : List Part) (s : State) : SameOutside ps s s := by
  intro p _
  cases p <;> simp [Part.same]

/-- Two changes of state, framed by two lists, are framed by the two together. -/
theorem SameOutside.append {ps qs : List Part} {s t u : State} (hst : SameOutside ps s t)
    (htu : SameOutside qs t u) : SameOutside (ps ++ qs) s u :=
  (hst.mono fun _ => List.mem_append_left qs).trans (htu.mono fun _ => List.mem_append_right ps)

theorem State.sameOutside_push (s : State) (k : Fin 16) (a : Word) :
    SameOutside [.stack] s (s.push k a) := by
  intro p hp
  cases p with
  | stack => exact absurd (List.mem_singleton_self Part.stack) hp
  | memory | registers | index | pc | delay | sound | screen | keys | status | fault | draws
  | source =>
    simp [Part.same, State.keyDown]

theorem State.sameOutside_pop (s : State) (k : Fin 16) :
    SameOutside [.stack] s (s.pop k) := by
  intro p hp
  cases p with
  | stack => exact absurd (List.mem_singleton_self Part.stack) hp
  | memory | registers | index | pc | delay | sound | screen | keys | status | fault | draws
  | source =>
    simp [Part.same, State.keyDown]

theorem State.sameOutside_raise (s : State) (f : Fault) :
    SameOutside [.fault] s (s.raise f) := by
  intro p hp
  cases p with
  | fault => exact absurd (List.mem_singleton_self Part.fault) hp
  | memory | registers | index | pc | stack | delay | sound | screen | keys | status | draws
  | source =>
    simp [Part.same, State.stackAt, State.keyDown]

theorem State.sameOutside_setWait (s : State) (b : Bool) :
    SameOutside [.status] s (s.setWait b) := by
  intro p hp
  cases p with
  | status => exact absurd (List.mem_singleton_self Part.status) hp
  | memory | registers | index | pc | stack | delay | sound | screen | keys | fault | draws
  | source =>
    simp [Part.same, State.stackAt, State.keyDown]

theorem State.sameOutside_setOpcode (s : State) (w : Word) :
    SameOutside [.status] s (s.setOpcode w) := by
  intro p hp
  cases p with
  | status => exact absurd (List.mem_singleton_self Part.status) hp
  | memory | registers | index | pc | stack | delay | sound | screen | keys | fault | draws
  | source =>
    simp [Part.same, State.readV, State.memRead, State.stackAt, State.keyDown]

theorem State.sameOutside_draw (s : State) :
    SameOutside [.draws] s (s.draw) := by
  intro p hp
  cases p with
  | draws => exact absurd (List.mem_singleton_self Part.draws) hp
  | memory | registers | index | pc | stack | delay | sound | screen | keys | status | fault
  | source =>
    simp [Part.same, State.stackAt, State.keyDown]

/-- Fetch writes `PC`, `OPCODE` and `WAIT` (R101, R106). -/
theorem sameOutside_fetch (s : State) : SameOutside [.pc, .status] s (fetch s) := by
  intro p hp
  cases p with
  | pc | status => simp at hp
  | memory | registers | index | stack | delay | sound | screen | keys | fault | draws
  | source =>
    simp [Part.same, State.stackAt, State.keyDown]

/-- A loop is framed by the parts its body is framed by. -/
theorem State.sameOutside_foldl {ps : List Part} {body : State → Nat → State}
    (hbody : ∀ s k, SameOutside ps s (body s k)) (s : State) (ks : List Nat) :
    SameOutside ps s (ks.foldl body s) := by
  induction ks generalizing s with
  | nil => exact .refl ps s
  | cons k ks ih => exact (hbody s k).trans (ih (body s k))

/-! ### The handlers with branches -/

/-- `00EE` on an empty stack (R191). -/
theorem exec_ret_of_empty {s : State} (hempty : s.sp.val = 0) :
    exec .ret s = .next (s.raise .stackUnderflow) := by
  simp [exec, execRet, hempty]

/-- `00EE` with an entry to pop (R130). -/
theorem exec_ret_of_entry {s : State} {k : Fin 16} (hentry : s.sp.val = k.val + 1) :
    exec .ret s = .next ((s.pop k).setPc (s.stackAt k)) := by
  simp [exec, execRet, hentry]

/-- `2nnn` on a full stack (R190). -/
theorem exec_call_of_full {s : State} (nnn : Addr12) (hfull : s.sp.val = 16) :
    exec (.call nnn) s = .next (s.raise .stackOverflow) := by
  simp [exec, execCall, hfull]

/-- `2nnn` with a free entry (R132). -/
theorem exec_call_of_free {s : State} {k : Fin 16} (nnn : Addr12) (hfree : s.sp.val = k.val) :
    exec (.call nnn) s = .next ((s.push k s.pc).setPc (zextAddr nnn)) := by
  have := k.isLt
  simp [exec, execCall, hfree, show k.val ≠ 16 by omega]

/-- `00EE` either raises or pops (R130, R191). -/
theorem exec_ret_cases {s t : State} (h : exec .ret s = .next t) :
    s.sp.val = 0 ∧ t = s.raise .stackUnderflow ∨
      ∃ k : Fin 16, s.sp.val = k.val + 1 ∧ t = (s.pop k).setPc (s.stackAt k) := by
  rcases Nat.eq_zero_or_pos s.sp.val with hempty | hpos
  · rw [exec_ret_of_empty hempty] at h
    cases h
    exact .inl ⟨hempty, rfl⟩
  · have hlt := s.sp.isLt
    have hentry : s.sp.val = (⟨s.sp.val - 1, by omega⟩ : Fin 16).val + 1 :=
      (Nat.sub_add_cancel hpos).symm
    rw [exec_ret_of_entry hentry] at h
    cases h
    exact .inr ⟨_, hentry, rfl⟩

/-- `2nnn` either raises or pushes and jumps (R132, R190). -/
theorem exec_call_cases {nnn : Addr12} {s t : State} (h : exec (.call nnn) s = .next t) :
    s.sp.val = 16 ∧ t = s.raise .stackOverflow ∨
      ∃ k : Fin 16, s.sp.val = k.val ∧ t = (s.push k s.pc).setPc (zextAddr nnn) := by
  by_cases hfull : s.sp.val = 16
  · rw [exec_call_of_full nnn hfull] at h
    cases h
    exact .inl ⟨hfull, rfl⟩
  · have hlt := s.sp.isLt
    have hfree : s.sp.val = (⟨s.sp.val, by omega⟩ : Fin 16).val := rfl
    rw [exec_call_of_free nnn hfree] at h
    cases h
    exact .inr ⟨_, hfree, rfl⟩

/-- No key is found exactly when none is pressed (R181). -/
theorem State.firstKey_eq_none_iff {s : State} :
    s.firstKey = none ↔ ∀ k, s.keyDown k = false := by
  have hall : ∀ k : Fin 16, k ∈ allKeys := by decide
  simp [State.firstKey, hall]

/-- The key found is the lowest pressed one (R181). -/
theorem State.firstKey_eq_some {s : State} {k : Fin 16} (hdown : s.keyDown k = true)
    (hlower : ∀ q < k, s.keyDown q = false) : s.firstKey = some k := by
  have hall : allKeys = List.finRange 16 := by decide
  rw [State.firstKey, hall, ← Fin.find?_eq_find?_finRange]
  exact Fin.find?_eq_some_iff.mpr ⟨hdown, hlower⟩

/-- `Fx0A` with a key found (R181). -/
theorem exec_ldVxK_of_some (x : Reg) {s : State} {k : Fin 16} (hkey : s.firstKey = some k) :
    exec (.ldVxK x) s = .next (s.writeV x (keyByte k)) := by
  simp [exec, execLdVxK, hkey]

/-- `Fx0A` with no key pressed (R181). -/
theorem exec_ldVxK_of_none (x : Reg) {s : State} (hkey : s.firstKey = none) :
    exec (.ldVxK x) s = .next ((s.setWait true).setPc (s.pc - 2)) := by
  simp [exec, execLdVxK, hkey]

/-- `Fx0A` either takes a key or waits (R181). -/
theorem exec_ldVxK_cases {x : Reg} {s t : State} (h : exec (.ldVxK x) s = .next t) :
    (∃ k, s.firstKey = some k ∧ t = s.writeV x (keyByte k)) ∨
      s.firstKey = none ∧ t = (s.setWait true).setPc (s.pc - 2) := by
  cases hkey : s.firstKey with
  | some k => rw [exec_ldVxK_of_some x hkey] at h; cases h; exact .inl ⟨k, rfl, rfl⟩
  | none => rw [exec_ldVxK_of_none x hkey] at h; cases h; exact .inr ⟨rfl, rfl⟩

/-! ### What an instruction writes -/

/-- A handler writes only the parts the inventory gives its instruction (R20), by the updates it
makes. -/
theorem exec_sameOutside {i : Instr} {s t : State} (h : exec i s = .next t) :
    SameOutside (writtenParts i) s t := by
  cases i with
  | ret =>
    rcases exec_ret_cases h with ⟨-, rfl⟩ | ⟨k, -, rfl⟩
    · exact (s.sameOutside_raise _).mono (by simp [writtenParts])
    · exact ((s.sameOutside_pop k).append (State.sameOutside_setPc _ _)).mono
        (by simp [writtenParts])
  | call nnn =>
    rcases exec_call_cases h with ⟨-, rfl⟩ | ⟨k, -, rfl⟩
    · exact (s.sameOutside_raise _).mono (by simp [writtenParts])
    · exact ((s.sameOutside_push k s.pc).append (State.sameOutside_setPc _ _)).mono
        (by simp [writtenParts])
  | ldVxK x =>
    rcases exec_ldVxK_cases h with ⟨k, -, rfl⟩ | ⟨-, rfl⟩
    · exact (s.sameOutside_writeV x _).mono (by simp [writtenParts])
    · exact ((s.sameOutside_setWait true).append (State.sameOutside_setPc _ _)).mono
        (by simp [writtenParts])
  | jp | jpV0 => cases h; exact s.sameOutside_setPc _
  | seByte | sneByte | seReg | sneReg | skp | sknp => cases h; exact s.sameOutside_skipIf _
  | ldByte | addByte | ldReg | orReg | andReg | xorReg | ldVxDT =>
    cases h; exact s.sameOutside_writeV _ _
  | addReg | subReg | shr | subn | shl =>
    cases h; exact (s.sameOutside_writeV vF _).trans (State.sameOutside_writeV _ _ _)
  | rnd x kk =>
    cases h
    exact (s.sameOutside_draw.append (State.sameOutside_writeV _ x _)).mono
      (by simp [writtenParts])
  | cls => cases h; exact s.sameOutside_setFb _
  | drw => cases h; exact (s.sameOutside_setFb _).append (State.sameOutside_writeV _ vF _)
  | ldDT => cases h; exact s.sameOutside_setDt _
  | ldST => cases h; exact s.sameOutside_setSt _
  | ldI | addI | ldF => cases h; exact s.sameOutside_setI _
  | ldB =>
    cases h
    exact ((s.sameOutside_memWrite _ _).trans (State.sameOutside_memWrite _ _ _)).trans
      (State.sameOutside_memWrite _ _ _)
  | stRegs => cases h; exact State.sameOutside_foldl (fun t _ => t.sameOutside_memWrite _ _) s _
  | ldRegs => cases h; exact State.sameOutside_foldl (fun t _ => t.sameOutside_writeV _ _) s _

theorem SameRegsExcept.mono {rs qs : List Reg} {s t : State} (h : SameRegsExcept rs s t)
    (hsub : ∀ r ∈ rs, r ∈ qs) : SameRegsExcept qs s t :=
  fun r hr => h r (mt (hsub r) hr)

theorem SameRegsExcept.trans {rs : List Reg} {s t u : State} (hst : SameRegsExcept rs s t)
    (htu : SameRegsExcept rs t u) : SameRegsExcept rs s u :=
  fun r hr => (htu r hr).trans (hst r hr)

/-- The flag-writing shape of answer changes VF and its destination alone. -/
theorem State.sameRegsExcept_flagThenReg (s : State) (x : Reg) (f b : Byte) :
    SameRegsExcept [x, 15] s ((s.writeV vF f).writeV x b) :=
  ((s.sameRegsExcept_writeV vF f).mono (by simp)).trans
    ((State.sameRegsExcept_writeV _ x b).mono (by simp))

/-- The loop of `Fx65` changes the registers its indices name alone (R175). -/
theorem State.sameRegsExcept_foldl_loadOne (s : State) (ks : List Nat) :
    SameRegsExcept (ks.map blockReg) s (ks.foldl loadOne s) := by
  induction ks generalizing s with
  | nil => exact fun _ _ => rfl
  | cons k ks ih =>
    have hhead : SameRegsExcept [blockReg k] s (loadOne s k) := s.sameRegsExcept_writeV _ _
    exact (hhead.mono (by simp)).trans ((ih (loadOne s k)).mono (by simp +contextual))

/-- A handler writes only its destination registers and, where its rule says so, VF: those that
write no register at all by the frame of their parts. -/
theorem exec_sameRegsExcept {i : Instr} {s t : State} (h : exec i s = .next t) :
    SameRegsExcept (writtenRegs i) s t := by
  cases i with
  | ldByte | addByte | ldReg | orReg | andReg | xorReg | ldVxDT =>
    cases h; exact s.sameRegsExcept_writeV _ _
  | rnd x kk => cases h; exact s.draw.sameRegsExcept_writeV x _
  | addReg | subReg | shr | subn | shl => cases h; exact s.sameRegsExcept_flagThenReg _ _ _
  | drw => cases h; exact State.sameRegsExcept_writeV _ vF _
  | ldVxK x =>
    rcases exec_ldVxK_cases h with ⟨k, -, rfl⟩ | ⟨-, rfl⟩
    · exact s.sameRegsExcept_writeV x _
    · exact fun _ _ => rfl
  | ldRegs x => cases h; exact s.sameRegsExcept_foldl_loadOne _
  | cls | ret | jp | call | jpV0 | seByte | sneByte | seReg | sneReg | skp | sknp | ldDT | ldST
  | ldI | addI | ldF | ldB | stRegs =>
    have hregs := exec_sameOutside h .registers (by simp [writtenParts])
    exact fun r _ => hregs r

/-- Settles O19: by the handler's updates, each of which frames the other parts. -/
theorem instructionsWriteOnlyTheirParts : Obligations.InstructionsWriteOnlyTheirParts :=
  fun _ _ _ => exec_sameOutside

/-- Settles O20: by the handler's register writes, or because registers are no part it writes. -/
theorem instructionsWriteOnlyTheirRegisters : Obligations.InstructionsWriteOnlyTheirRegisters :=
  fun _ _ _ => exec_sameRegsExcept

end Sys2Proof.Machine

namespace Sys2Proof.Machine

/-! ## What a cycle does (spec/40_fetch_decode_dispatch.md, spec/60_exceptions.md) -/

/-- The word at `PC` with each address reduced modulo 4096 (R61, R65). -/
theorem State.wordAtPc_eq_mod (s : State) :
    s.wordAtPc = s.mem.read (s.pc.toNat % 4096) ++ s.mem.read ((s.pc + 1).toNat % 4096) := by
  rw [s.wordAtPc_eq_append, maskAddr_eq_mod, maskAddr_eq_mod]

/-- Settles O6: a recognised word runs its handler from the state fetch left. -/
theorem stepRunsTheDecodedInstruction : Obligations.StepRunsTheDecodedInstruction := by
  intro s i hfault hdecode
  rw [← s.wordAtPc_eq_mod] at hdecode ⊢
  exact step_of_decodes hfault hdecode

/-- Settles O57: fetch overwrites both registers and reads neither. -/
theorem opcodeAndWaitAreNeverRead : Obligations.OpcodeAndWaitAreNeverRead := by
  intro s w b hfault
  rw [step_of_fault_eq_none hfault,
    step_of_fault_eq_none (s := { s with opcode := w, wait := b }) hfault]
  rfl

/-! ### Outcomes -/

/-- A step answers a next state, or the fault latched before it (R105, R107). -/
theorem step_answer (s : State) :
    (∃ t, step s = .next t) ∨ ∃ f, s.fault = some f ∧ step s = .fault f := by
  cases hfault : s.fault with
  | none =>
    obtain ⟨t, hnext, -⟩ := step_opcode hfault
    exact .inl ⟨t, hnext⟩
  | some f => exact .inr ⟨f, rfl, step_of_fault_eq_some hfault⟩

/-- After a cycle `OPCODE` is the word it fetched (R30). -/
theorem opcode_of_step_next {s t : State} (hstep : step s = .next t) : t.opcode = s.wordAtPc := by
  obtain ⟨t', hnext, hopcode⟩ := step_opcode (fault_eq_none_of_step_next hstep)
  rw [hstep] at hnext
  cases hnext
  exact hopcode

theorem executeCycle_of_next {s t : State} (hstep : step s = .next t) :
    executeCycle s = .ok (t, outcomeOf t) := by
  rw [executeCycle, hstep]

theorem executeCycle_of_fault {s : State} {f : Fault} (hfault : s.fault = some f) :
    executeCycle s = .ok (s, .faulted f) := by
  rw [executeCycle, step_of_fault_eq_some hfault]

theorem outcomeOf_of_fault {t : State} {f : Fault} (hfault : t.fault = some f) :
    outcomeOf t = .faulted f := by
  rw [outcomeOf, hfault]

theorem outcomeOf_of_decodes {t : State} {i : Instr} (hfault : t.fault = none)
    (hdecode : decodeWord t.opcode = .ok i) : outcomeOf t = .ok := by
  rw [outcomeOf, hfault]
  dsimp only
  rw [hdecode]

theorem outcomeOf_of_unrecognised (t : State) (hfault : t.fault = none)
    (hword : wellFormedWord t.opcode = false) : outcomeOf t = .unrecognised t.opcode := by
  rw [outcomeOf, hfault]
  dsimp only
  rw [wellFormedWord_eq_false_iff.mp hword]

/-- Settles O8: the gate stops the cycle before fetch, and the host keeps the state. -/
theorem faultGateFreezesTheCore : Obligations.FaultGateFreezesTheCore :=
  fun _ _ hfault => ⟨step_of_fault_eq_some hfault, executeCycle_of_fault hfault⟩

/-- Settles O9: every handler answers a next state, so only the gate can stop a cycle, with the
fault latched before it. -/
theorem everyCycleCompletes : Obligations.EveryCycleCompletes := by
  intro s
  refine ⟨fun i => (exec_opcode i s).imp fun _ => And.left,
    fun hfault => (step_opcode hfault).imp fun _ => And.left, fun r hrefused => ?_, fun f hstop => ?_⟩
  · rcases step_answer s with ⟨t, hnext⟩ | ⟨f, -, hstop⟩
    · cases hnext.symm.trans hrefused
    · cases hstop.symm.trans hrefused
  · rcases step_answer s with ⟨t, hnext⟩ | ⟨f', hfault, hstop'⟩
    · cases hnext.symm.trans hstop
    · cases hstop'.symm.trans hstop
      exact hfault

/-- Settles O7: such a cycle is fetch alone, and the state it leaves reports the word. -/
theorem unrecognisedWordIsNoOp : Obligations.UnrecognisedWordIsNoOp := by
  intro s hfault hword
  have hstep := step_of_unrecognised hfault hword
  refine ⟨fetch s, hstep, fetch_opcode s, fetch_pc s, fetch_wait s, sameOutside_fetch s, ?_⟩
  rw [executeCycle_of_next hstep, outcomeOf_of_unrecognised (fetch s) hfault hword, fetch_opcode]

/-- Settles O10: the outcome is read from `FAULT` and from the word in `OPCODE`, and a word that is
not recognised leaves `FAULT` as it was. -/
theorem cycleOutcomesAreReported : Obligations.CycleOutcomesAreReported := by
  intro s hfault
  obtain ⟨t, hstep, hopcode⟩ := step_opcode hfault
  refine ⟨t, outcomeOf t, executeCycle_of_next hstep, fun i hdecode hnone => ?_,
    fun f => outcomeOf_of_fault, fun hword => ?_⟩
  · exact outcomeOf_of_decodes hnone (hopcode ▸ hdecode)
  · rw [step_of_unrecognised hfault hword] at hstep
    cases hstep
    exact outcomeOf_of_unrecognised (fetch s) hfault hword

/-! ### `WAIT` after a cycle -/

theorem status_mem_writtenParts {i : Instr} :
    Part.status ∈ writtenParts i ↔ ∃ x, i = .ldVxK x := by
  cases i <;> simp [writtenParts]

/-- A handler entered with `WAIT` clear leaves it set exactly if it is the key wait's and no key is
pressed (R31, R181). -/
theorem exec_wait {i : Instr} {s t : State} (hwait : s.wait = false)
    (h : exec i s = .next t) :
    t.wait = true ↔ (∃ x, i = .ldVxK x) ∧ ∀ k, s.keyDown k = false := by
  by_cases hi : ∃ x, i = .ldVxK x
  · obtain ⟨x, rfl⟩ := hi
    rw [← State.firstKey_eq_none_iff]
    rcases exec_ldVxK_cases h with ⟨k, hkey, rfl⟩ | ⟨hkey, rfl⟩
    · simp [hwait, hkey]
    · simp [hkey]
  · obtain ⟨-, hsame⟩ := exec_sameOutside h .status (mt status_mem_writtenParts.mp hi)
    simp [hsame, hwait, hi]

/-- Settles O12: fetch stores the word and clears `WAIT`, and only a blocked key wait sets it. -/
theorem waitReportsABlockedKeyWait : Obligations.WaitReportsABlockedKeyWait := by
  intro s t hfault hstep
  refine ⟨opcode_of_step_next hstep, ?_⟩
  rcases step_cases hstep with ⟨i, hdecode, hexec⟩ | ⟨hword, rfl⟩
  · rw [exec_wait (fetch_wait s) hexec, hdecode]
    simp only [Except.ok.injEq]
    rfl
  · rw [wellFormedWord_eq_false_iff.mp hword]
    simp

/-! ### Faults -/

theorem fault_mem_writtenParts {i : Instr} :
    Part.fault ∈ writtenParts i ↔ i = .ret ∨ ∃ nnn, i = .call nnn := by
  cases i <;> simp [writtenParts]

/-- The three things a handler can do to `FAULT` (R190, R191): raise the overflow, raise the
underflow, or neither. -/
theorem exec_fault_cases {i : Instr} {s t : State} (h : exec i s = .next t) :
    ((∃ nnn, i = .call nnn) ∧ s.sp.val = 16 ∧ t = s.raise .stackOverflow) ∨
    (i = .ret ∧ s.sp.val = 0 ∧ t = s.raise .stackUnderflow) ∨
    (t.fault = s.fault ∧ (i = .ret → s.sp.val ≠ 0) ∧ ((∃ nnn, i = .call nnn) → s.sp.val ≠ 16)) := by
  by_cases hi : Part.fault ∈ writtenParts i
  · rcases fault_mem_writtenParts.mp hi with rfl | ⟨nnn, rfl⟩
    · rcases exec_ret_cases h with ⟨hsp, rfl⟩ | ⟨k, hsp, rfl⟩
      · exact .inr (.inl ⟨rfl, hsp, rfl⟩)
      · exact .inr (.inr ⟨rfl, fun _ => by omega, fun ⟨_, h⟩ => (nomatch h)⟩)
    · rcases exec_call_cases h with ⟨hsp, rfl⟩ | ⟨k, hsp, rfl⟩
      · exact .inl ⟨⟨nnn, rfl⟩, hsp, rfl⟩
      · exact .inr (.inr ⟨rfl, fun h => (nomatch h), fun _ => by omega⟩)
  · have hi' := mt fault_mem_writtenParts.mpr hi
    exact .inr (.inr ⟨exec_sameOutside h .fault hi, fun h => absurd (.inl h) hi',
      fun h => absurd (.inr h) hi'⟩)

/-- The state a raising handler leaves, seen over the whole cycle (R192). -/
theorem raise_fetch_frame (s : State) (f : Fault) :
    ((fetch s).raise f).pc = s.pc + 2 ∧ ((fetch s).raise f).opcode = s.wordAtPc ∧
      ((fetch s).raise f).wait = false ∧
      SameOutside [.pc, .status, .fault] s ((fetch s).raise f) :=
  ⟨rfl, rfl, rfl, (sameOutside_fetch s).append ((fetch s).sameOutside_raise f)⟩

/-- Settles O13: the handler raises the overflow, raises the underflow, or keeps `FAULT`. -/
theorem faultsAreRaisedExactlyByStackErrors : Obligations.FaultsAreRaisedExactlyByStackErrors := by
  intro s t hfault hstep
  have hsp16 : s.sp = 16 ↔ s.sp.val = 16 := Fin.ext_iff
  have hsp0 : s.sp = 0 ↔ s.sp.val = 0 := Fin.ext_iff
  rw [hsp16, hsp0]
  rcases step_cases hstep with ⟨i, hdecode, hexec⟩ | ⟨hword, rfl⟩
  · rw [hdecode]
    simp only [Except.ok.injEq]
    rcases exec_fault_cases hexec with ⟨⟨nnn, rfl⟩, hsp, rfl⟩ | ⟨rfl, hsp, rfl⟩ | ⟨hsame, hret, hcall⟩
    · rw [fetch_sp] at hsp
      exact ⟨by simp [hsp], by simp, fun _ => raise_fetch_frame s _⟩
    · rw [fetch_sp] at hsp
      exact ⟨by simp, by simp [hsp], fun _ => raise_fetch_frame s _⟩
    · rw [fetch_fault, hfault] at hsame
      rw [fetch_sp] at hret hcall
      simp only [hsame]
      exact ⟨by simpa using fun hsp nnn h => hcall ⟨nnn, h⟩ hsp, by simpa using mt hret, by simp⟩
  · rw [wellFormedWord_eq_false_iff.mp hword, fetch_fault, hfault]
    simp

end Sys2Proof.Machine

namespace Sys2Proof.Machine

/-! ## Calls and returns (spec/42_control_flow.md) -/

/-- What `Bnnn` answers (R133). -/
theorem exec_jpV0 (nnn : Addr12) (s : State) :
    exec (.jpV0 nnn) s = .next (s.setPc (zextAddr nnn + zextByte (s.readV 0))) := rfl

/-- The sum of `Bnnn` does not reach 65536 (R133). -/
theorem toNat_zextAddr_add_zextByte (nnn : Addr12) (b : Byte) :
    (zextAddr nnn + zextByte b).toNat = nnn.toNat + b.toNat := by
  have := nnn.isLt
  have := b.isLt
  rw [BitVec.toNat_add, toNat_zextAddr, toNat_zextByte]
  omega

/-- Settles O25: the next state writes the sum to `PC`, and 16 bits hold it. -/
theorem jumpPlusV0SetsPc : Obligations.JumpPlusV0SetsPc := by
  intro nnn s
  exact ⟨_, exec_jpV0 nnn s, toNat_zextAddr_add_zextByte nnn (s.readV 0), s.sameOutside_setPc _⟩

/-- Settles O26: a call with a free entry pushes and jumps, one on a full stack raises. -/
theorem callPushesAndJumps : Obligations.CallPushesAndJumps := by
  intro nnn s
  refine ⟨fun k hfree => ⟨_, exec_call_of_free nnn hfree, ?pushed, ?kept, rfl, toNat_zextAddr nnn,
    ?frame⟩, fun hfull => ⟨_, exec_call_of_full nnn hfull, rfl, s.sameOutside_raise _⟩⟩
  case pushed => exact (s.stackAt_push k k s.pc).trans (if_pos rfl)
  case kept => exact fun q hq => (s.stackAt_push k q s.pc).trans (if_neg hq)
  case frame =>
    exact ((s.sameOutside_push k s.pc).append (State.sameOutside_setPc _ _)).mono (by simp)

/-- Settles O27: a return with an entry pops it into `PC`, one on an empty stack raises. -/
theorem returnPopsIntoPc : Obligations.ReturnPopsIntoPc := by
  intro s
  refine ⟨fun k hentry => ⟨_, exec_ret_of_entry hentry, rfl, rfl, fun _ => rfl, ?frame⟩,
    fun hempty => ⟨_, exec_ret_of_empty hempty, rfl, s.sameOutside_raise _⟩⟩
  case frame => exact ((s.sameOutside_pop k).append (State.sameOutside_setPc _ _)).mono (by simp)

/-- Settles O28: the call pushes the advanced `PC` at the old `SP`, where the return finds it. -/
theorem callThenReturnResumes : Obligations.CallThenReturnResumes := by
  intro s t nnn hfault hsp hcall hstep hret
  rw [step_of_decodes hfault hcall] at hstep
  rcases exec_call_cases hstep with ⟨hfull, -⟩ | ⟨k, hfree, rfl⟩
  · rw [fetch_sp] at hfull
    omega
  · have hnone : (((fetch s).push k (fetch s).pc).setPc (zextAddr nnn)).fault = none := hfault
    refine ⟨_, (step_of_decodes hnone hret).trans (exec_ret_of_entry (k := k) rfl), ?pc, ?sp⟩
    case pc => exact ((fetch s).stackAt_push k k (fetch s).pc).trans (if_pos rfl)
    case sp => exact Fin.ext hfree.symm

/-! ## Skips (spec/43_skip.md) -/

/-- The low four bits of a byte are its value modulo 16 (R147). -/
theorem keyIndex_eq_ofNat (b : Byte) : keyIndex b = Fin.ofNat 16 b.toNat := by
  apply Fin.ext
  simp [keyIndex]

/-- An instruction with a skip condition answers `if c: Skip()` of it (R140). -/
theorem exec_of_skipCondition {i : Instr} {s : State} {c : Bool} (h : skipCondition s i = some c) :
    exec i s = .next (s.skipIf c) := by
  cases i with
  | seByte | seReg => cases h; rfl
  | sneByte x kk => cases h; rw [exec_sneByte, bne, decide_not]; rfl
  | sneReg x y => cases h; rw [exec_sneReg, bne, decide_not]; rfl
  | skp x | sknp x => cases h; rw [← keyIndex_eq_ofNat]; rfl
  | _ => cases h

/-- Settles O30: the two answer `if c: Skip()` of the selected key, pressed or not. -/
theorem keySkipsTestTheSelectedKey : Obligations.KeySkipsTestTheSelectedKey := by
  intro x k s hk
  have hindex : Fin.ofNat 16 (s.readV x).toNat = k := Fin.ext hk
  have hskp : skipCondition s (.skp x) = some (s.keyDown k) := hindex ▸ rfl
  have hsknp : skipCondition s (.sknp x) = some !(s.keyDown k) := hindex ▸ rfl
  refine ⟨exec_skips_iff (exec_of_skipCondition hskp) Iff.rfl, ?_⟩
  obtain ⟨t, hnext, hpc, hframe⟩ := exec_skips_iff (p := ¬s.keyDown k = true)
    (exec_of_skipCondition hsknp) (by simp)
  exact ⟨t, hnext, hpc.trans (ite_not _ _ _), hframe⟩

/-- Fetch changes nothing a skip tests. -/
theorem skipCondition_fetch (s : State) (i : Instr) : skipCondition (fetch s) i = skipCondition s i := by
  cases i <;> rfl

/-- `PC` after the whole cycle of a skip (R111). -/
theorem skipIf_fetch_pc (s : State) (c : Bool) :
    ((fetch s).skipIf c).pc = s.pc + if c = true then 4 else 2 := by
  rw [State.skipIf_pc, fetch_pc]
  cases c
  · rfl
  · exact BitVec.add_assoc s.pc 2 2

/-- Settles O31: the cycle is fetch and then `if c: Skip()`. -/
theorem skipCyclesAdvanceByFourOrTwo : Obligations.SkipCyclesAdvanceByFourOrTwo := by
  intro s i c hfault hdecode hc
  rw [← skipCondition_fetch] at hc
  have hstep := (step_of_decodes hfault hdecode).trans (exec_of_skipCondition hc)
  refine ⟨_, hstep, skipIf_fetch_pc s c, opcode_of_step_next hstep, ?wait, ?frame⟩
  case wait => rw [State.skipIf_eq]; rfl
  case frame => exact ((sameOutside_fetch s).append (State.sameOutside_skipIf _ c)).mono (by simp)

/-! ## The key wait (spec/46_timer_key.md) -/

theorem toNat_keyByte (k : Fin 16) : (keyByte k).toNat = k.val := by
  have := k.isLt
  rw [keyByte, BitVec.toNat_ofNat]
  omega

/-- Settles O50: the lowest pressed key is the one found, and none is found when none is pressed. -/
theorem keyWaitTakesTheLowestKey : Obligations.KeyWaitTakesTheLowestKey := by
  intro x s
  refine ⟨fun k hdown hlower => ?pressed, fun hnone => ?waits⟩
  case pressed =>
    have hkey := State.firstKey_eq_some hdown hlower
    obtain ⟨t, hnext, hx, hregs, hframe⟩ := exec_writesReg (exec_ldVxK_of_some x hkey)
    exact ⟨t, hnext, hx ▸ toNat_keyByte k, hregs, hframe⟩
  case waits =>
    refine ⟨_, exec_ldVxK_of_none x (State.firstKey_eq_none_iff.mpr hnone), rfl, rfl, rfl, ?_⟩
    exact ((s.sameOutside_setWait true).append (State.sameOutside_setPc _ _)).mono (by simp)

/-- A blocked key wait's cycle, seen whole: `PC` is back where it was (R181). -/
theorem step_of_waiting {s : State} {x : Reg} (hfault : s.fault = none)
    (hdecode : decodeWord s.wordAtPc = .ok (.ldVxK x)) (hnone : ∀ k, s.keyDown k = false) :
    step s = .next { s with opcode := s.wordAtPc, wait := true } := by
  have hkey : (fetch s).firstKey = none := State.firstKey_eq_none_iff.mpr hnone
  rw [step_of_decodes hfault hdecode, exec_ldVxK_of_none x hkey, fetch_pc, BitVec.add_sub_cancel]
  rfl

/-- Settles O51: the cycle changes `OPCODE` and `WAIT` alone, which the next cycle does not read. -/
theorem keyWaitRepeatsWithNoNetChange : Obligations.KeyWaitRepeatsWithNoNetChange := by
  intro s x hfault hdecode hnone
  have hstep := step_of_waiting hfault hdecode hnone
  refine ⟨_, hstep, ?again, rfl, ?frame⟩
  case again => rw [opcodeAndWaitAreNeverRead s _ _ hfault, hstep]
  case frame =>
    exact (s.sameOutside_setOpcode s.wordAtPc).trans (State.sameOutside_setWait _ true)

/-! ## `PC` after every instruction (spec/10_state.md R25) -/

theorem zextAddr_eq_ofNat (nnn : Addr12) : zextAddr nnn = BitVec.ofNat 16 nnn.toNat :=
  (BitVec.ofNat_toNat 16 nnn).symm

theorem zextAddr_add_zextByte_eq_ofNat (nnn : Addr12) (b : Byte) :
    zextAddr nnn + zextByte b = BitVec.ofNat 16 (nnn.toNat + b.toNat) := by
  rw [← toNat_zextAddr_add_zextByte, BitVec.ofNat_toNat, BitVec.setWidth_eq]

theorem State.exists_keyDown_iff {s : State} : (∃ k, s.keyDown k = true) ↔ s.firstKey ≠ none := by
  simp [State.firstKey_eq_none_iff]

theorem pcAfter_of_skipCondition {s : State} {i : Instr} {c : Bool}
    (h : skipCondition s i = some c) : pcAfter s i = s.pc + if c = true then 4 else 2 := by
  cases i with
  | seByte | sneByte | seReg | sneReg | skp | sknp =>
    simp only [pcAfter, h, Option.some.injEq]
    cases c <;> rfl
  | _ => cases h

/-- What a handler leaves in `PC`, as the spec's table has it. -/
theorem exec_fetch_pc {s t : State} {i : Instr} (h : exec i (fetch s) = .next t) :
    t.pc = pcAfter s i := by
  cases hc : skipCondition s i with
  | some c =>
    rw [exec_of_skipCondition ((skipCondition_fetch s i).trans hc)] at h
    cases h
    exact (skipIf_fetch_pc s c).trans (pcAfter_of_skipCondition hc).symm
  | none =>
    cases i with
    | jp nnn => cases h; exact zextAddr_eq_ofNat nnn
    | jpV0 nnn => cases h; exact zextAddr_add_zextByte_eq_ofNat nnn (s.readV 0)
    | call nnn =>
      rcases exec_call_cases h with ⟨hfull, rfl⟩ | ⟨k, hfree, rfl⟩
      · exact (if_pos (Fin.ext hfull)).symm
      · have hnotFull : s.sp ≠ 16 := fun hfull =>
          absurd (hfree.symm.trans (congrArg Fin.val hfull)) k.isLt.ne
        exact (zextAddr_eq_ofNat nnn).trans (if_neg hnotFull).symm
    | ret =>
      rcases exec_ret_cases h with ⟨hempty, rfl⟩ | ⟨k, hentry, rfl⟩
      · exact (if_pos (Fin.ext hempty)).symm
      · rw [fetch_sp] at hentry
        have hnotEmpty : s.sp ≠ 0 := fun hempty => by simp [hempty] at hentry
        have hk : Fin.ofNat 16 (s.sp.val - 1) = k := by
          rw [hentry, Nat.add_sub_cancel, Fin.ofNat_val_eq_self]
        rw [pcAfter, if_neg hnotEmpty, hk]
        rfl
    | ldVxK x =>
      rcases exec_ldVxK_cases h with ⟨k, hkey, rfl⟩ | ⟨hkey, rfl⟩
      · have hpressed : s.firstKey ≠ none := Option.ne_none_iff_exists'.mpr ⟨k, hkey⟩
        exact (if_pos (State.exists_keyDown_iff.mpr hpressed)).symm
      · have hnone : ¬∃ k, s.keyDown k = true := mt State.exists_keyDown_iff.mp (not_not.mpr hkey)
        exact (BitVec.add_sub_cancel s.pc 2).trans (if_neg hnone).symm
    | seByte | sneByte | seReg | sneReg | skp | sknp => cases hc
    | _ => exact exec_sameOutside h .pc (by simp [writtenParts])

/-- Settles O11: the table's entry is what the instruction's handler leaves in `PC`. -/
theorem pcAfterEveryInstruction : Obligations.PcAfterEveryInstruction := by
  intro s t i hfault hdecode hstep
  rw [step_of_decodes hfault hdecode] at hstep
  exact exec_fetch_pc hstep

end Sys2Proof.Machine

namespace Sys2Proof.Machine

/-! ## The invariant (spec/10_state.md R39)

One lemma per kind of update; a handler keeps the invariant because its updates do. -/

/-- The invariant speaks of six fields only. -/
theorem State.Inv.of_same_fields {s t : State} (h : s.Inv) (hmem : t.mem = s.mem)
    (hi : t.i = s.i) (hsp : t.sp = s.sp) (hfault : t.fault = s.fault)
    (hopcode : t.opcode = s.opcode) (hwait : t.wait = s.wait) : t.Inv where
  mem_wf := hmem ▸ h.mem_wf
  i_lt := hi ▸ h.i_lt
  overflow_full := by rw [hfault, hsp]; exact h.overflow_full
  underflow_empty := by rw [hfault, hsp]; exact h.underflow_empty
  wait_keyWait := by rw [hwait, hopcode, hfault]; exact h.wait_keyWait

theorem State.inv_reset : State.reset.Inv where
  mem_wf := reset_mem_wf
  i_lt := by decide
  overflow_full := by decide
  underflow_empty := by decide
  wait_keyWait := by decide

theorem State.inv_construct (source : Nat) : (State.construct source).Inv :=
  State.inv_reset.of_same_fields rfl rfl rfl rfl rfl rfl

theorem State.Inv.memWrite {s : State} (h : s.Inv) (a : Word) (b : Byte) : (s.memWrite a b).Inv :=
  { h with mem_wf := State.mem_wf_memWrite h.mem_wf a b }

theorem State.Inv.writeV {s : State} (h : s.Inv) (r : Reg) (b : Byte) : (s.writeV r b).Inv :=
  h.of_same_fields rfl rfl rfl rfl rfl rfl

theorem State.Inv.setPc {s : State} (h : s.Inv) (a : Word) : (s.setPc a).Inv :=
  h.of_same_fields rfl rfl rfl rfl rfl rfl

theorem State.Inv.setI {s : State} (h : s.Inv) {a : Word} (ha : a.toNat < 4096) : (s.setI a).Inv :=
  { h with i_lt := ha }

theorem State.Inv.foldl {body : State → Nat → State} (hbody : ∀ s k, s.Inv → (body s k).Inv)
    {s : State} (h : s.Inv) (ks : List Nat) : (ks.foldl body s).Inv := by
  induction ks generalizing s with
  | nil => exact h
  | cons k ks ih => exact ih (hbody s k h)

theorem State.Inv.memWriteList {s : State} (h : s.Inv) (a : Word) (bs : List Byte) :
    (s.memWriteList a bs).Inv := by
  induction bs generalizing s a with
  | nil => exact h
  | cons b bs ih => exact ih (h.memWrite a b) (a + 1)

/-- While no fault is latched `SP` may move (R39). -/
theorem State.Inv.of_no_fault {s t : State} (h : s.Inv) (hmem : t.mem = s.mem) (hi : t.i = s.i)
    (hfault : t.fault = none) (hwait : t.wait = true → t.opcode &&& 0xF0FF = 0xF00A) : t.Inv where
  mem_wf := hmem ▸ h.mem_wf
  i_lt := hi ▸ h.i_lt
  overflow_full := by simp [hfault]
  underflow_empty := by simp [hfault]
  wait_keyWait := fun hw => ⟨hwait hw, hfault⟩

theorem State.inv_fetch {s : State} (h : s.Inv) (hfault : s.fault = none) : (fetch s).Inv :=
  h.of_no_fault rfl rfl hfault (by simp)

/-- Raising the overflow on a full stack, and the underflow on an empty one, keeps the invariant
while no key wait is pending (R192). -/
theorem State.Inv.raise {s : State} (h : s.Inv) (hwait : s.wait = false) {f : Fault}
    (hover : f = .stackOverflow → s.sp = 16) (hunder : f = .stackUnderflow → s.sp = 0) :
    (s.raise f).Inv :=
  { h with
    overflow_full := fun hf => hover (Option.some.inj hf)
    underflow_empty := fun hf => hunder (Option.some.inj hf)
    wait_keyWait := by simp [hwait] }

/-- The address of a glyph stays below 4096 (R172). -/
theorem toNat_glyphAddr (b : Byte) : (glyphAddr fontBase b).toNat = 0x050 + 5 * b.toNat := by
  have := b.isLt
  have hfive : (5 : Word).toNat = 5 := rfl
  rw [glyphAddr, BitVec.toNat_add, BitVec.toNat_mul, toNat_zextByte, fontBase, BitVec.toNat_ofNat,
    hfive]
  omega

theorem toNat_glyphAddr_lt (b : Byte) : (glyphAddr fontBase b).toNat < 4096 := by
  have := b.isLt
  rw [toNat_glyphAddr]
  omega

/-- The word of a key wait (R86). -/
theorem and_mask_of_decodes_ldVxK {w : Word} {x : Reg} (h : decodeWord w = .ok (.ldVxK x)) :
    w &&& 0xF0FF = 0xF00A := by
  rw [← encode_of_decodeWord h]
  exact (Laws.wordXSS_mask 0xF x 0x0A).trans (by decide)

/-- A handler keeps the invariant from the state fetch leaves: no fault latched, `WAIT` clear, and
its own word in `OPCODE`. -/
theorem State.Inv.exec {i : Instr} {s t : State} (hinv : s.Inv) (hfault : s.fault = none)
    (hwait : s.wait = false) (hdecode : decodeWord s.opcode = .ok i)
    (h : Machine.exec i s = .next t) : t.Inv := by
  cases i with
  | ret =>
    rcases exec_ret_cases h with ⟨hempty, rfl⟩ | ⟨k, -, rfl⟩
    · exact hinv.raise hwait (by simp) fun _ => Fin.ext hempty
    · exact hinv.of_no_fault rfl rfl hfault (by simp [hwait])
  | call nnn =>
    rcases exec_call_cases h with ⟨hfull, rfl⟩ | ⟨k, -, rfl⟩
    · exact hinv.raise hwait (fun _ => Fin.ext hfull) (by simp)
    · exact hinv.of_no_fault rfl rfl hfault (by simp [hwait])
  | ldVxK x =>
    rcases exec_ldVxK_cases h with ⟨k, -, rfl⟩ | ⟨-, rfl⟩
    · exact hinv.writeV x _
    · exact hinv.of_no_fault rfl rfl hfault fun _ => and_mask_of_decodes_ldVxK hdecode
  | jp | jpV0 => cases h; exact hinv.setPc _
  | seByte | sneByte | seReg | sneReg | skp | sknp =>
    cases h; rw [State.skipIf_eq]; exact hinv.setPc _
  | ldByte | addByte | ldReg | orReg | andReg | xorReg | ldVxDT => cases h; exact hinv.writeV _ _
  | addReg | subReg | shr | subn | shl => cases h; exact (hinv.writeV vF _).writeV _ _
  | cls | rnd | drw | ldDT | ldST => cases h; exact hinv.of_same_fields rfl rfl rfl rfl rfl rfl
  | ldI nnn => cases h; exact hinv.setI (toNat_zextAddr nnn ▸ nnn.isLt)
  | addI x => cases h; exact hinv.setI (maskAddr_lt _)
  | ldF x => cases h; exact hinv.setI (toNat_glyphAddr_lt _)
  | ldB => cases h; exact ((hinv.memWrite _ _).memWrite _ _).memWrite _ _
  | stRegs => cases h; exact hinv.foldl (fun _ _ hs => hs.memWrite _ _) _
  | ldRegs => cases h; exact hinv.foldl (fun _ _ hs => hs.writeV _ _) _

/-- Settles O17: fetch keeps the invariant and clears `WAIT`, and every handler keeps it from
there. -/
theorem stepKeepsTheInvariant : Obligations.StepKeepsTheInvariant := by
  intro s t hinv hstep
  have hfault := fault_eq_none_of_step_next hstep
  have hfetch := State.inv_fetch hinv hfault
  rcases step_cases hstep with ⟨i, hdecode, hexec⟩ | ⟨-, rfl⟩
  · exact hfetch.exec hfault (fetch_wait s) hdecode hexec
  · exact hfetch

/-- Settles O16: memory lists nothing at reset, and the other fields are fixed values. -/
theorem resetSatisfiesTheInvariant : Obligations.ResetSatisfiesTheInvariant :=
  State.inv_reset

/-! ## The host's operations (spec/60_exceptions.md) -/

/-- A load of at most `ROM_MAX` bytes (R201). -/
theorem State.loadROM_of_le (s : State) {bytes : List Byte} (h : bytes.length ≤ romMax) :
    s.loadROM bytes = .ok (s.memWriteList romBase bytes) :=
  if_neg (Nat.not_lt.mpr h)

theorem State.loadROM_of_gt (s : State) {bytes : List Byte} (h : romMax < bytes.length) :
    s.loadROM bytes = .error .romTooLarge :=
  if_pos h

/-- Before the first cycle a load that fits is copied (R201). -/
theorem Session.apply_loadROM_of_le {m : Session} {bytes : List Byte} (hbegun : m.cyclesBegun = false)
    (h : bytes.length ≤ romMax) :
    m.apply (.loadROM bytes) = .ok (⟨m.core.memWriteList romBase bytes, false⟩, .done) := by
  simp [Session.apply, hbegun, m.core.loadROM_of_le h]

/-- Before the first cycle a load that does not fit is turned away (R201). -/
theorem Session.apply_loadROM_of_gt {m : Session} {bytes : List Byte} (hbegun : m.cyclesBegun = false)
    (h : romMax < bytes.length) : m.apply (.loadROM bytes) = .ok (m, .romTooLarge) := by
  simp [Session.apply, hbegun, m.core.loadROM_of_gt h]

theorem Session.apply_loadROM_of_begun {m : Session} (hbegun : m.cyclesBegun = true)
    (bytes : List Byte) : m.apply (.loadROM bytes) = .error .loadAfterFirstCycle := by
  simp [Session.apply, hbegun]

/-- A cycle is never refused; it leaves the state its step answers, or at the fault gate the state
as it was (R100, R105). -/
theorem executeCycle_cases (s : State) :
    (∃ t, step s = .next t ∧ executeCycle s = .ok (t, outcomeOf t)) ∨
      ∃ f, s.fault = some f ∧ executeCycle s = .ok (s, .faulted f) := by
  rcases step_answer s with ⟨t, hstep⟩ | ⟨f, hfault, -⟩
  · exact .inl ⟨t, hstep, executeCycle_of_next hstep⟩
  · exact .inr ⟨f, hfault, executeCycle_of_fault hfault⟩

/-- What an operation that is not refused makes of the core (R200 to R207). -/
inductive CoreChange (s : State) : State → Prop
  | reset : CoreChange s s.hostReset
  | load (bytes : List Byte) : CoreChange s (s.memWriteList romBase bytes)
  | cycle {t : State} (h : step s = .next t) : CoreChange s t
  | tick : CoreChange s s.tickTimers
  | key (k : Fin 16) (b : Bool) : CoreChange s (s.setKey k b)
  | kept : CoreChange s s

theorem Session.apply_coreChange {m m' : Session} {o : HostOp} {r : Report}
    (h : m.apply o = .ok (m', r)) : CoreChange m.core m'.core := by
  cases o with
  | reset => cases h; exact .reset
  | loadROM bytes =>
    cases hbegun : m.cyclesBegun with
    | true => rw [Session.apply_loadROM_of_begun hbegun] at h; cases h
    | false =>
      rcases Nat.lt_or_ge romMax bytes.length with hgt | hle
      · rw [Session.apply_loadROM_of_gt hbegun hgt] at h; cases h; exact .kept
      · rw [Session.apply_loadROM_of_le hbegun hle] at h; cases h; exact .load bytes
  | executeCycle =>
    rcases executeCycle_cases m.core with ⟨t, hstep, hcycle⟩ | ⟨f, -, hcycle⟩
    · rw [Session.apply, hcycle] at h; cases h; exact .cycle hstep
    · rw [Session.apply, hcycle] at h; cases h; exact .kept
  | tickTimers => cases h; exact .tick
  | setKey k b => cases h; exact .key k b
  | observe => cases h; exact .kept

theorem CoreChange.inv {s t : State} (h : CoreChange s t) (hinv : s.Inv) : t.Inv := by
  cases h with
  | reset => exact (State.inv_construct s.source).of_same_fields rfl rfl rfl rfl rfl rfl
  | load bytes => exact hinv.memWriteList romBase bytes
  | cycle hstep => exact stepKeepsTheInvariant s t hinv hstep
  | tick | key => exact hinv.of_same_fields rfl rfl rfl rfl rfl rfl
  | kept => exact hinv

theorem Session.Reachable.inv {m : Session} (h : m.Reachable) : m.core.Inv := by
  induction h with
  | start source => exact State.inv_construct source
  | next _ happly ih => exact (Session.apply_coreChange happly).inv ih

/-- One more operation of an infinite sequence. -/
theorem Session.after_succ_of_apply {m m' m'' : Session} {ops : Nat → HostOp} {n : Nat} {r : Report}
    (hbefore : m.after ops n = .ok m') (happly : m'.apply (ops n) = .ok (m'', r)) :
    m.after ops (n + 1) = .ok m'' := by
  simp only [Session.after, hbefore, happly]

/-- Where an infinite sequence got past an operation, that operation completed. -/
theorem Session.after_succ_cases {m m'' : Session} {ops : Nat → HostOp} {n : Nat}
    (h : m.after ops (n + 1) = .ok m'') :
    ∃ m' r, m.after ops n = .ok m' ∧ m'.apply (ops n) = .ok (m'', r) := by
  rw [Session.after] at h
  split at h
  case h_1 => cases h
  case h_2 m' hbefore =>
    split at h
    case h_1 happly => cases h; exact ⟨m', _, hbefore, happly⟩
    case h_2 => cases h

/-- Every session along an infinite sequence of operations is reachable (R208). -/
theorem Session.reachable_of_after {source : Nat} {ops : Nat → HostOp} {n : Nat} {m : Session}
    (h : (Session.construct source).after ops n = .ok m) : m.Reachable := by
  induction n generalizing m with
  | zero => cases h; exact .start source
  | succ n ih =>
    obtain ⟨m', r, hbefore, happly⟩ := Session.after_succ_cases h
    exact (ih hbefore).next happly

/-- Only a load after a cycle is refused; and only a cycle makes one have begun. -/
theorem Session.apply_completes {m : Session} {o : HostOp}
    (h : m.cyclesBegun = true → ∀ bytes, o ≠ .loadROM bytes) :
    ∃ m' r, m.apply o = .ok (m', r) ∧
      (m'.cyclesBegun = true → m.cyclesBegun = true ∨ o = .executeCycle) := by
  cases o with
  | loadROM bytes =>
    have hbegun : m.cyclesBegun = false := Bool.eq_false_iff.mpr fun hb => h hb bytes rfl
    rcases Nat.lt_or_ge romMax bytes.length with hgt | hle
    · exact ⟨_, _, Session.apply_loadROM_of_gt hbegun hgt, .inl⟩
    · exact ⟨_, _, Session.apply_loadROM_of_le hbegun hle, by simp⟩
  | executeCycle =>
    rcases executeCycle_cases m.core with ⟨t, -, hcycle⟩ | ⟨f, -, hcycle⟩
    · exact ⟨⟨t, true⟩, .cycle (outcomeOf t), by rw [Session.apply, hcycle], fun _ => .inr rfl⟩
    · exact ⟨⟨m.core, true⟩, .cycle (.faulted f), by rw [Session.apply, hcycle], fun _ => .inr rfl⟩
  | reset => exact ⟨_, _, rfl, by simp⟩
  | tickTimers | setKey | observe => exact ⟨_, _, rfl, .inl⟩

/-- Along a sequence with no load after a cycle every operation completes, and where a cycle has
begun one of the operations so far was a cycle. -/
theorem Session.after_completes {m : Session} {ops : Nat → HostOp} (hstart : m.cyclesBegun = false)
    (hloads : ∀ k n bytes, k < n → ops k = .executeCycle → ops n ≠ .loadROM bytes) (n : Nat) :
    ∃ m', m.after ops n = .ok m' ∧ (m'.cyclesBegun = true → ∃ k < n, ops k = .executeCycle) := by
  induction n with
  | zero => exact ⟨m, rfl, by simp [hstart]⟩
  | succ n ih =>
    obtain ⟨m', hbefore, hbegun⟩ := ih
    have hload : m'.cyclesBegun = true → ∀ bytes, ops n ≠ .loadROM bytes := fun hb bytes => by
      obtain ⟨k, hk, hcycle⟩ := hbegun hb
      exact hloads k n bytes hk hcycle
    obtain ⟨m'', r, happly, hbegun'⟩ := Session.apply_completes hload
    refine ⟨m'', Session.after_succ_of_apply hbefore happly, fun hb => ?_⟩
    rcases hbegun' hb with hb' | hcycle
    · obtain ⟨k, hk, hcycle⟩ := hbegun hb'
      exact ⟨k, Nat.lt_succ_of_lt hk, hcycle⟩
    · exact ⟨n, Nat.lt_succ_self n, hcycle⟩

/-- Settles O18: construction has the invariant and every operation keeps it; and only a load after
a cycle is refused. -/
theorem reachableStatesSatisfyTheInvariant : Obligations.ReachableStatesSatisfyTheInvariant := by
  refine ⟨fun _ => Session.Reachable.inv, fun _ _ _ _ h => (Session.reachable_of_after h).inv,
    fun source ops hloads n => ?_⟩
  obtain ⟨m, hafter, -⟩ := Session.after_completes (m := Session.construct source) rfl hloads n
  exact ⟨m, hafter⟩

/-! ### Cores side by side (R212) -/

theorem State.memWriteList_source (s : State) (a : Word) (bs : List Byte) :
    (s.memWriteList a bs).source = s.source := by
  induction bs generalizing s a with
  | nil => rfl
  | cons b bs ih => exact ih (s.memWrite a b) (a + 1)

/-- A handler keeps the core's random source: no instruction writes it. -/
theorem exec_source {i : Instr} {s t : State} (h : exec i s = .next t) : t.source = s.source :=
  exec_sameOutside h .source (by cases i <;> simp [writtenParts])

theorem CoreChange.source {s t : State} (h : CoreChange s t) : t.source = s.source := by
  cases h with
  | load bytes => exact s.memWriteList_source romBase bytes
  | cycle hstep =>
    rcases step_cases hstep with ⟨i, -, hexec⟩ | ⟨-, rfl⟩
    · exact (exec_source hexec).trans (fetch_source s)
    · rfl
  | reset | tick | key | kept => rfl

/-- Settles O60: the operation replaces one core of the vector, by a state with the same source;
and core `k` is constructed with source `k`. -/
theorem coresSideBySideShareNothing : Obligations.CoresSideBySideShareNothing := by
  refine ⟨fun n b b' k o r happly => ?_, fun n j k hjk hsource => hjk (Fin.ext ?_)⟩
  · obtain ⟨m, hcore, rfl⟩ := Cores.apply_ok happly
    have hself : (b.set k.val m).get k = m := Vector.getElem_set_self _
    have hother : ∀ j, j ≠ k → (b.set k.val m).get j = b.get j := fun j hj =>
      Vector.getElem_set_ne _ _ fun hval => hj (Fin.ext hval.symm)
    refine ⟨by rw [hself]; exact hcore, hother, fun j => ?_⟩
    by_cases hj : j = k
    · rw [hj, hself]
      exact (Session.apply_coreChange hcore).source
    · rw [hother j hj]
  · exact (Cores.construct_source j).symm.trans (hsource.trans (Cores.construct_source k))

end Sys2Proof.Machine

namespace Sys2Proof.Machine

/-! ## Addresses and blocks of memory (spec/20_memory.md, spec/45_index_memory.md) -/

/-- A read depends on the masked address alone (R61). -/
theorem State.memRead_of_maskAddr_eq (s : State) {a b : Word} (h : maskAddr a = maskAddr b) :
    s.memRead a = s.memRead b := by
  rw [State.memRead, h, State.memRead]

/-- A write depends on the masked address alone (R61). -/
theorem State.memWrite_of_maskAddr_eq (s : State) {a b : Word} (h : maskAddr a = maskAddr b)
    (u : Byte) : s.memWrite a u = s.memWrite b u := by
  rw [State.memWrite, h, State.memWrite]

/-- Settles O48: the mask is reduction modulo 4096, and reads and writes see the masked address. -/
theorem addressesAreModulo4096 : Obligations.AddressesAreModulo4096 := by
  intro s a b u h
  rw [← maskAddr_eq_mod, ← maskAddr_eq_mod] at h
  exact ⟨s.memRead_of_maskAddr_eq h, s.memWrite_of_maskAddr_eq h u⟩

@[simp] theorem blockReg_val (r : Reg) : blockReg r.val = r := Fin.ofNat_val_eq_self r

theorem blockReg_of_lt {k : Nat} (hk : k < 16) : (blockReg k).val = k := Nat.mod_eq_of_lt hk

/-! ### The block store -/

/-- The first `n` rounds of the loop of `Fx55` (R174). -/
def State.storeBlock (s : State) (n : Nat) : State := (List.range n).foldl storeOne s

/-- What `Fx55` answers (R174). -/
theorem exec_stRegs (x : Reg) (s : State) :
    exec (.stRegs x) s = .next (s.storeBlock (x.val + 1)) := rfl

theorem State.storeBlock_succ (s : State) (n : Nat) :
    s.storeBlock (n + 1) = storeOne (s.storeBlock n) n := by
  rw [State.storeBlock, List.range_succ, List.foldl_append]
  rfl

theorem State.sameOutside_storeBlock (s : State) (n : Nat) :
    SameOutside [.memory] s (s.storeBlock n) :=
  State.sameOutside_foldl (fun t _ => t.sameOutside_memWrite _ _) s _

/-- A round of the loop stores the register of the state before the loop, at the address from the
`I` of that state: the rounds before changed memory alone. -/
theorem State.storeBlock_succ_eq_memWrite (s : State) (n : Nat) : s.storeBlock (n + 1) =
    (s.storeBlock n).memWrite (indexed s.i n) (s.readV (blockReg n)) := by
  have hindex : (s.storeBlock n).i = s.i := s.sameOutside_storeBlock n .index (by simp)
  have hregs := s.sameOutside_storeBlock n .registers (by simp)
  rw [s.storeBlock_succ, storeOne, hindex, hregs (blockReg n)]

theorem State.sameMemExcept_storeBlock (s : State) (n : Nat) :
    SameMemExcept s.i n s (s.storeBlock n) := by
  induction n with
  | zero => exact fun _ _ => rfl
  | succ n ih =>
    rw [s.storeBlock_succ_eq_memWrite]
    refine SameMemExcept.trans (fun b hb => ih b fun k hk => hb k (Nat.lt_succ_of_lt hk)) ?_
    exact State.sameMemExcept_memWrite _ s.i (Nat.lt_succ_self n) _

/-- Every byte of the block is read back: no later round covers it. -/
theorem State.memRead_storeBlock (s : State) {n : Nat} (hn : n ≤ 16) {k : Nat} (hk : k < n) :
    (s.storeBlock n).memRead (indexed s.i k) = s.readV (blockReg k) := by
  induction n with
  | zero => omega
  | succ n ih =>
    rw [s.storeBlock_succ_eq_memWrite]
    by_cases hkn : k = n
    · subst hkn
      exact State.memRead_memWrite_self _ _ _
    · rw [State.memRead_memWrite_indexed_ne _ s.i (by omega) (by omega) hkn]
      exact ih (by omega) (by omega)

/-- Settles O44: the rounds of the loop store at different bytes, so each is read back, and leave
the other bytes and every other part alone. -/
theorem blockStoreCopiesRegisters : Obligations.BlockStoreCopiesRegisters := by
  intro x s
  refine ⟨_, exec_stRegs x s, fun k hk => ?_, s.sameMemExcept_storeBlock _, s.sameOutside_storeBlock _⟩
  exact (s.memRead_storeBlock x.isLt (Nat.lt_succ_of_le hk)).trans (by rw [blockReg_val])

/-! ### The block load -/

/-- The first `n` rounds of the loop of `Fx65` (R175). -/
def State.loadBlock (s : State) (n : Nat) : State := (List.range n).foldl loadOne s

/-- What `Fx65` answers (R175). -/
theorem exec_ldRegs (x : Reg) (s : State) :
    exec (.ldRegs x) s = .next (s.loadBlock (x.val + 1)) := rfl

theorem State.loadBlock_succ (s : State) (n : Nat) :
    s.loadBlock (n + 1) = loadOne (s.loadBlock n) n := by
  rw [State.loadBlock, List.range_succ, List.foldl_append]
  rfl

theorem State.sameOutside_loadBlock (s : State) (n : Nat) :
    SameOutside [.registers] s (s.loadBlock n) :=
  State.sameOutside_foldl (fun t _ => t.sameOutside_writeV _ _) s _

/-- A round of the loop loads the byte of the state before the loop: the rounds before changed
registers alone. -/
theorem State.loadBlock_succ_eq_writeV (s : State) (n : Nat) : s.loadBlock (n + 1) =
    (s.loadBlock n).writeV (blockReg n) (s.memRead (indexed s.i n)) := by
  have hindex : (s.loadBlock n).i = s.i := s.sameOutside_loadBlock n .index (by simp)
  have hmem := s.sameOutside_loadBlock n .memory (by simp)
  rw [s.loadBlock_succ, loadOne, hindex, hmem (indexed s.i n)]

/-- The registers below `n` hold the block, the others what they held. -/
theorem State.readV_loadBlock (s : State) {n : Nat} (hn : n ≤ 16) (r : Reg) :
    (s.loadBlock n).readV r = if r.val < n then s.memRead (indexed s.i r.val) else s.readV r := by
  induction n with
  | zero => rfl
  | succ n ih =>
    have hr : r = blockReg n ↔ r.val = n := by rw [Fin.ext_iff, blockReg_of_lt hn]
    rw [s.loadBlock_succ_eq_writeV, State.readV_writeV, ih (by omega), if_congr hr rfl rfl]
    rcases Nat.lt_trichotomy r.val n with hlt | heq | hgt
    · rw [if_neg (by omega), if_pos hlt, if_pos (by omega)]
    · rw [if_pos heq, if_pos (by omega), heq]
    · rw [if_neg (by omega), if_neg (by omega), if_neg (by omega)]

/-- Settles O45: after the loop the registers up to `x` hold the block, the others what they
held. -/
theorem blockLoadCopiesMemory : Obligations.BlockLoadCopiesMemory := by
  intro x s
  exact ⟨_, exec_ldRegs x s,
    fun k hk => (s.readV_loadBlock x.isLt k).trans (if_pos (Nat.lt_succ_of_le hk)),
    fun k hk => (s.readV_loadBlock x.isLt k).trans (if_neg (Nat.not_lt.mpr hk)),
    s.sameOutside_loadBlock _⟩

/-- Settles O46: each register is loaded from the byte it was stored at. -/
theorem blockStoreThenLoadRestores : Obligations.BlockStoreThenLoadRestores := by
  intro x s t u hstore hindex hmem
  obtain ⟨t', hstore', hstored, -, -⟩ := blockStoreCopiesRegisters x s
  cases hstore.symm.trans hstore'
  obtain ⟨v, hload, hloaded, -, -⟩ := blockLoadCopiesMemory x u
  refine ⟨v, hload, fun k hk => ?_⟩
  rw [hloaded k hk, hindex, hmem, hstored k hk]

/-! ### The fetch after a store -/

/-- The high byte of the word fetched is the byte at `PC`. -/
theorem fetch_opcode_div (t : State) : (fetch t).opcode.toNat / 256 = (t.memRead t.pc).toNat := by
  have := (t.memRead (t.pc + 1)).isLt
  rw [fetch_opcode, State.wordAtPc, toNat_joinBytes]
  omega

/-- The low byte of the word fetched is the byte at `PC + 1`. -/
theorem fetch_opcode_mod (t : State) :
    (fetch t).opcode.toNat % 256 = (t.memRead (t.pc + 1)).toNat := by
  have := (t.memRead (t.pc + 1)).isLt
  rw [fetch_opcode, State.wordAtPc, toNat_joinBytes]
  omega

/-- Any byte after `Fx55`: the register stored over it, or what was there. -/
theorem memRead_of_exec_stRegs {x : Reg} {s t : State} (h : exec (.stRegs x) s = .next t)
    (a : Word) :
    (∀ j ≤ x, maskAddr (s.i + BitVec.ofNat 16 j.val) = maskAddr a → t.memRead a = s.readV j) ∧
    ((∀ j ≤ x, maskAddr (s.i + BitVec.ofNat 16 j.val) ≠ maskAddr a) →
      t.memRead a = s.memRead a) := by
  obtain ⟨t', hexec, hstored, hbytes, -⟩ := blockStoreCopiesRegisters x s
  cases h.symm.trans hexec
  refine ⟨fun j hj ha => (t.memRead_of_maskAddr_eq ha).symm.trans (hstored j hj),
    fun hne => hbytes a fun k hk => ?_⟩
  exact (hne ⟨k, by omega⟩ (Nat.le_of_lt_succ hk)).symm

/-- Any byte after `Fx33`: the digit stored over it, or what was there. -/
theorem memRead_of_exec_ldB {x : Reg} {s t : State} (h : exec (.ldB x) s = .next t) (a : Word) :
    (∀ j < 3, maskAddr (s.i + BitVec.ofNat 16 j) = maskAddr a → (t.memRead a).toNat =
      [(s.readV x).toNat / 100, (s.readV x).toNat / 10 % 10, (s.readV x).toNat % 10].getD j 0) ∧
    ((∀ j < 3, maskAddr (s.i + BitVec.ofNat 16 j) ≠ maskAddr a) → t.memRead a = s.memRead a) := by
  obtain ⟨t', hexec, hhundreds, htens, hones, hbytes, -⟩ := bcdStoresThreeDigits x s
  cases h.symm.trans hexec
  refine ⟨fun j hj ha => ?_, fun hne => hbytes a fun k hk => (hne k hk).symm⟩
  rw [← t.memRead_of_maskAddr_eq ha]
  match j, hj with
  | 0, _ => exact (congrArg (fun b => (t.memRead b).toNat) (BitVec.add_zero s.i)).trans hhundreds
  | 1, _ => exact htens
  | 2, _ => exact hones

/-- Settles O47: each byte of the word fetched is read at its own address, and the store is seen
there. -/
theorem nextFetchSeesTheStore : Obligations.NextFetchSeesTheStore := by
  intro s t x
  rw [fetch_opcode_div, fetch_opcode_mod]
  refine ⟨fun h => ?_, fun h digits hdigits => ?_⟩
  · obtain ⟨hhigh, hhigh'⟩ := memRead_of_exec_stRegs h t.pc
    obtain ⟨hlow, hlow'⟩ := memRead_of_exec_stRegs h (t.pc + 1)
    exact ⟨fun j hj ha => congrArg _ (hhigh j hj ha), fun j hj ha => congrArg _ (hlow j hj ha),
      fun hne => congrArg _ (hhigh' hne), fun hne => congrArg _ (hlow' hne)⟩
  · subst hdigits
    obtain ⟨hhigh, hhigh'⟩ := memRead_of_exec_ldB h t.pc
    obtain ⟨hlow, hlow'⟩ := memRead_of_exec_ldB h (t.pc + 1)
    exact ⟨hhigh, hlow, fun hne => congrArg _ (hhigh' hne), fun hne => congrArg _ (hlow' hne)⟩

/-! ### The font (spec/10_state.md R34) -/

/-- What `Fx29` answers (R172). -/
theorem exec_ldF (x : Reg) (s : State) :
    exec (.ldF x) s = .next (s.setI (glyphAddr fontBase (s.readV x))) := rfl

/-- The top rows of the sixteen glyphs (R34). -/
theorem resetByte_glyph_top : ∀ d < 16, resetByte ((0x050 + 5 * d) % 4096) =
    [0xF0, 0x20, 0xF0, 0xF0, 0x90, 0xF0, 0xF0, 0xF0, 0xF0, 0xF0, 0xF0, 0xE0,
      0xF0, 0xE0, 0xF0, 0xF0].getD d 0 := by decide

/-- Settles O42: 16 bits hold the address for every byte, and in memory as constructed it is that of
the digit's top row. -/
theorem glyphAddressOfTheWholeByte : Obligations.GlyphAddressOfTheWholeByte := by
  intro x s
  refine ⟨_, exec_ldF x s, toNat_glyphAddr _, fun hmem hdigit => ?_, s.sameOutside_setI _⟩
  rw [State.memRead_setI, State.setI_i, State.memRead, hmem, Memory.read_nil, maskAddr_eq_mod,
    toNat_glyphAddr]
  exact resetByte_glyph_top _ hdigit

/-- Outside the font memory is 0 at reset (R35). -/
theorem resetByte_outside_font {a : Nat} (h : a < 0x50 ∨ 0xA0 ≤ a) : resetByte a = 0 := by
  have hlength : fontTable.length = 80 := rfl
  rw [resetByte, fontBase]
  split_ifs with hbase
  · exact List.getD_eq_default _ _ (by omega)
  · rfl

/-- Settles O14: each register's reset value is read off, and memory lists nothing. -/
theorem resetLeavesTheTable : Obligations.ResetLeavesTheTable := by
  refine ⟨by decide, rfl, rfl, rfl, by decide, rfl, rfl, blankScreen_get, by decide, rfl, rfl, rfl,
    fun a ha => resetByte_outside_font ha, by decide, fun source p hp => ?_⟩
  cases p with
  | source => simp at hp
  | stack | status => exact ⟨rfl, by simp [State.stackAt]⟩
  | _ => simp [Part.same, State.readV, State.memRead, State.keyDown]

end Sys2Proof.Machine

namespace Sys2Proof.Machine

/-! ## The timers, the load, the reset and the reads (spec/60_exceptions.md) -/

/-- One tick takes a timer down by one, stopping at 0 (R203). -/
theorem toNat_tickByte (b : Byte) : (tickByte b).toNat = b.toNat - 1 := by
  unfold tickByte
  split_ifs with hzero
  · rw [hzero]; rfl
  · have hpos : b.toNat ≠ 0 := fun h => hzero (BitVec.eq_of_toNat_eq h)
    rw [BitVec.toNat_sub_of_le (by rw [BitVec.le_def]; exact Nat.one_le_iff_ne_zero.mpr hpos)]
    rfl

/-- A tick writes the two timers (R203). -/
theorem State.sameOutside_tickTimers (s : State) : SameOutside [.delay, .sound] s s.tickTimers :=
  (s.sameOutside_setDt _).append (State.sameOutside_setSt _ _)

/-- Settles O53: a tick takes each timer down by one, stopping at 0, and writes nothing else. -/
theorem ticksCountBothTimersDownToZero : Obligations.TicksCountBothTimersDownToZero := by
  intro m n
  induction n generalizing m with
  | zero => exact ⟨m, rfl, rfl, rfl, .refl _ _⟩
  | succ n ih =>
    obtain ⟨m', hrun, hdt, hst, hframe⟩ := ih ⟨m.core.tickTimers, m.cyclesBegun⟩
    refine ⟨m', hrun, ?_, ?_, m.core.sameOutside_tickTimers.trans hframe⟩
    · rw [hdt, State.tickTimers, State.setSt_dt, State.setDt_dt, toNat_tickByte]
      omega
    · rw [hst, State.tickTimers, State.setSt_st, toNat_tickByte]
      omega

theorem indexed_succ (a : Word) (k : Nat) : indexed (a + 1) k = indexed a (k + 1) := by
  rw [indexed, indexed, BitVec.add_assoc, BitVec.add_comm 1, BitVec.ofNat_add]
  rfl

theorem State.sameOutside_memWriteList (s : State) (a : Word) (bs : List Byte) :
    SameOutside [.memory] s (s.memWriteList a bs) := by
  induction bs generalizing s a with
  | nil => exact .refl _ s
  | cons b bs ih => exact (s.sameOutside_memWrite a b).trans (ih (s.memWrite a b) (a + 1))

/-- A load changes the bytes from its base alone. -/
theorem State.sameMemExcept_memWriteList (s : State) (a : Word) (bs : List Byte) :
    SameMemExcept a bs.length s (s.memWriteList a bs) := by
  induction bs generalizing s a with
  | nil => exact fun _ _ => rfl
  | cons b bs ih =>
    have hhead : SameMemExcept a (bs.length + 1) s (s.memWrite a b) := by
      simpa using s.sameMemExcept_memWrite a (Nat.succ_pos bs.length) b
    refine hhead.trans fun c hc => ih (s.memWrite a b) (a + 1) c fun k hk => ?_
    rw [indexed_succ]
    exact hc (k + 1) (Nat.succ_lt_succ hk)

/-- Every byte of a load of at most 4096 is read back: no later one covers it. -/
theorem State.memRead_memWriteList (s : State) (a : Word) {bs : List Byte}
    (hlen : bs.length ≤ 4096) {k : Nat} (hk : k < bs.length) :
    (s.memWriteList a bs).memRead (indexed a k) = bs.getD k 0 := by
  induction bs generalizing s a k with
  | nil => cases hk
  | cons b bs ih =>
    rw [List.length_cons] at hlen hk
    cases k with
    | zero =>
      rw [State.memWriteList, State.sameMemExcept_memWriteList _ (a + 1) bs _ fun j hj => ?_,
        indexed_zero, State.memRead_memWrite_self, List.getD_cons_zero]
      rw [indexed_succ]
      exact maskAddr_indexed_ne a (by omega) (by omega) (by omega)
    | succ k =>
      rw [← indexed_succ, List.getD_cons_succ]
      exact ih (s.memWrite a b) (a + 1) (by omega) (by omega)

theorem indexed_romBase (k : Nat) : indexed romBase k = BitVec.ofNat 16 (0x200 + k) :=
  (BitVec.ofNat_add 0x200 k).symm

theorem maskAddr_indexed_romBase {k : Nat} (hk : k < 3584) :
    maskAddr (indexed romBase k) = 0x200 + k := by
  rw [indexed_romBase, maskAddr_eq_mod, BitVec.toNat_ofNat]
  omega

/-- Settles O54: the bytes of a load that fits lie at different addresses from 0x200 on. -/
theorem loadRomCopiesOrTurnsAway : Obligations.LoadRomCopiesOrTurnsAway := by
  intro m bytes
  refine ⟨fun hbegun hfits => ?_, Session.apply_loadROM_of_gt,
    fun hbegun => Session.apply_loadROM_of_begun hbegun bytes⟩
  refine ⟨_, Session.apply_loadROM_of_le hbegun hfits, fun k hk => ?_, fun a ha => ?_,
    m.core.sameOutside_memWriteList romBase bytes⟩
  · rw [← indexed_romBase]
    exact m.core.memRead_memWriteList romBase (by omega) hk
  · refine m.core.sameMemExcept_memWriteList romBase bytes a fun k hk => ?_
    rw [maskAddr_indexed_romBase (by omega)]
    omega

/-- Settles O55: a reset keeps of the old core its source and the draw counter alone. -/
theorem hostResetReconstructs : Obligations.HostResetReconstructs := by
  intro m
  refine ⟨_, rfl, rfl, rfl, rfl, fun p hp => ?_⟩
  cases p with
  | draws => simp at hp
  | stack | status => exact ⟨rfl, by simp [State.stackAt]⟩
  | _ => simp [Part.same, State.readV, State.memRead, State.keyDown]

/-- `TONE` is set exactly while the sound timer is not 0 (R207). -/
theorem State.tone_iff (s : State) : s.tone = true ↔ s.st.toNat ≠ 0 :=
  bne_iff_ne.trans (not_congr BitVec.toNat_inj.symm)

/-- Settles O56: a read answers the session itself and the fields as they stand. -/
theorem hostReadsScreenAndTone : Obligations.HostReadsScreenAndTone :=
  fun m => ⟨m.core.observe, rfl, fun _ _ => rfl, rfl, m.core.tone_iff, rfl, rfl⟩

/-! ## Subtraction, shifts and random bytes (spec/44_register_alu.md) -/

/-- The no-borrow flag is 1 where the subtrahend is no more than the minuend, else 0 (R158). -/
theorem noBorrowFlag_eq_ite (a b : Byte) :
    noBorrowFlag a b = if b.toNat ≤ a.toNat then 1 else 0 :=
  if_congr decide_eq_true_iff rfl rfl

/-- What an instruction that writes the flag to VF and then the difference of `V[a]` and `V[b]` to
`V[x]` does: an operand that is VF is the flag (R150). -/
theorem exec_writesFlagThenDifference {i : Instr} {s : State} {x a b : Reg} {f : Byte}
    (hexec : exec i s = .next ((s.writeV vF f).writeV x
      ((s.writeV vF f).readV a - (s.writeV vF f).readV b))) :
    ∃ t, exec i s = .next t ∧
      t.readV x = (if a = 15 then f else s.readV a) - (if b = 15 then f else s.readV b) ∧
      (x ≠ 15 → t.readV 15 = f) ∧ SameRegsExcept [x, 15] s t ∧ SameOutside [.registers] s t := by
  obtain ⟨t, hnext, hx, hrest⟩ := exec_writesFlagThenReg hexec
  exact ⟨t, hnext, by rw [hx, s.readV_writeV, s.readV_writeV], hrest⟩

/-- What `8xy5` answers (R158). -/
theorem exec_subReg (x y : Reg) (s : State) : exec (.subReg x y) s =
    let s1 := s.writeV vF (noBorrowFlag (s.readV x) (s.readV y))
    .next (s1.writeV x (s1.readV x - s1.readV y)) := rfl

/-- What `8xy7` answers (R160). -/
theorem exec_subn (x y : Reg) (s : State) : exec (.subn x y) s =
    let s1 := s.writeV vF (noBorrowFlag (s.readV y) (s.readV x))
    .next (s1.writeV x (s1.readV y - s1.readV x)) := rfl

/-- Settles O36: the difference is formed from the registers as the flag's write left them. -/
theorem subtractInEveryAliasingCase : Obligations.SubtractInEveryAliasingCase := by
  intro x y s f hf
  obtain ⟨t, hnext, hx, hflag, hregs, hframe⟩ := exec_writesFlagThenDifference (exec_subReg x y s)
  rw [noBorrowFlag_eq_ite, ← hf] at hx hflag
  refine ⟨t, hnext, hflag, fun hx15 hy15 => ?_, ?_, fun hx15 hy15 => ?_, ?_, hregs, hframe⟩
  · rw [hx, if_neg hx15, if_neg hy15]
  · rintro rfl hy15
    rw [hx, if_pos rfl, if_neg hy15]
  · rw [hx, if_neg hx15, if_pos hy15]
  · rintro rfl rfl
    exact hx.trans (BitVec.sub_self _)

/-- Settles O37: the same with the operands exchanged. -/
theorem reverseSubtractInEveryAliasingCase : Obligations.ReverseSubtractInEveryAliasingCase := by
  intro x y s f hf
  obtain ⟨t, hnext, hx, hflag, hregs, hframe⟩ := exec_writesFlagThenDifference (exec_subn x y s)
  rw [noBorrowFlag_eq_ite, ← hf] at hx hflag
  refine ⟨t, hnext, hflag, fun hx15 hy15 => ?_, ?_, fun hx15 hy15 => ?_, ?_, hregs, hframe⟩
  · rw [hx, if_neg hx15, if_neg hy15]
  · rintro rfl hy15
    rw [hx, if_pos rfl, if_neg hy15]
  · rw [hx, if_neg hx15, if_pos hy15]
  · rintro rfl rfl
    exact hx.trans (BitVec.sub_self _)

/-- What `8xy6` answers, whatever `y` is (R159, R89). -/
theorem exec_shr (x y : Reg) (s : State) : exec (.shr x y) s =
    let s1 := s.writeV vF (shiftedOutLow (s.readV x))
    .next (s1.writeV x (s1.readV x >>> 1)) := rfl

/-- What `8xyE` answers, whatever `y` is (R161, R89). -/
theorem exec_shl (x y : Reg) (s : State) : exec (.shl x y) s =
    let s1 := s.writeV vF (shiftedOutHigh (s.readV x))
    .next (s1.writeV x (s1.readV x <<< 1)) := rfl

theorem toNat_flagByte (c : Bool) : (flagByte c).toNat = c.toNat := by
  cases c <;> rfl

theorem toNat_shiftedOutLow (b : Byte) : (shiftedOutLow b).toNat = b.toNat % 2 := by
  rw [shiftedOutLow, toNat_flagByte, BitVec.getLsbD, Nat.toNat_testBit]
  omega

theorem toNat_shiftedOutHigh (b : Byte) : (shiftedOutHigh b).toNat = b.toNat / 128 := by
  have := b.isLt
  rw [shiftedOutHigh, toNat_flagByte, BitVec.getLsbD, Nat.toNat_testBit]
  omega

theorem toNat_shiftRight_one (b : Byte) : (b >>> 1).toNat = b.toNat / 2 := by
  rw [BitVec.toNat_ushiftRight, Nat.shiftRight_eq_div_pow]

theorem toNat_shiftLeft_one (b : Byte) : (b <<< 1).toNat = 2 * b.toNat % 256 := by
  rw [BitVec.toNat_shiftLeft, Nat.shiftLeft_eq, Nat.mul_comm]

/-- Settles O38: the shift is of the register as the flag's write left it: the old `V[x]`, or the
flag itself where `x` is VF. -/
theorem shiftsByOneInPlace : Obligations.ShiftsByOneInPlace := by
  intro x y z s
  refine ⟨⟨rfl, rfl⟩, ?right, ?left⟩
  case right =>
    obtain ⟨t, hnext, hx, hflag, hregs, hframe⟩ := exec_writesFlagThenReg (exec_shr x y s)
    refine ⟨t, hnext, fun hx15 => ⟨?_, ?_⟩, fun hx15 => ?_, hregs, hframe⟩
    · rw [hx, s.readV_writeV_ne hx15, toNat_shiftRight_one]
    · rw [hflag hx15, toNat_shiftedOutLow]
    · subst hx15
      apply BitVec.eq_of_toNat_eq
      rw [hx, s.readV_writeV_self, toNat_shiftRight_one, toNat_shiftedOutLow]
      exact Nat.div_eq_of_lt (Nat.mod_lt _ (by decide))
  case left =>
    obtain ⟨t, hnext, hx, hflag, hregs, hframe⟩ := exec_writesFlagThenReg (exec_shl x y s)
    refine ⟨t, hnext, fun hx15 => ⟨?_, ?_⟩, fun hx15 => ?_, hregs, hframe⟩
    · rw [hx, s.readV_writeV_ne hx15, toNat_shiftLeft_one]
    · rw [hflag hx15, toNat_shiftedOutHigh]
    · subst hx15
      have := (s.readV 15).isLt
      rw [hx, s.readV_writeV_self, toNat_shiftLeft_one, toNat_shiftedOutHigh]
      omega

/-- What `Cxkk` answers (R162). -/
theorem exec_rnd (x : Reg) (kk : Byte) (s : State) :
    exec (.rnd x kk) s = .next (s.draw.writeV x (s.randByte &&& kk)) := rfl

/-- Settles O39: one byte is drawn, whatever it is, and its bits outside `kk` are cleared. -/
theorem randomByteIsMasked : Obligations.RandomByteIsMasked := by
  intro x kk s
  have hx := State.readV_writeV_self s.draw x (s.randByte &&& kk)
  refine ⟨_, exec_rnd x kk s, hx, ?_, rfl, s.draw.sameRegsExcept_writeV x _,
    exec_sameOutside (exec_rnd x kk s)⟩
  rw [hx, BitVec.and_assoc, BitVec.and_not_self]
  exact BitVec.and_zero

/-! ## What a program cannot see (spec/10_state.md) -/

/-- Another value in ST, before the handler, changes nothing but ST after it. -/
theorem exec_setSt {i : Instr} {s t : State} (b : Byte) (h : exec i s = .next t) :
    ∃ u, exec i (s.setSt b) = .next u ∧ u.setSt t.st = t := by
  cases i with
  | ret =>
    rcases exec_ret_cases h with ⟨hempty, rfl⟩ | ⟨k, hentry, rfl⟩
    · exact ⟨_, exec_ret_of_empty hempty, rfl⟩
    · exact ⟨_, exec_ret_of_entry hentry, rfl⟩
  | call nnn =>
    rcases exec_call_cases h with ⟨hfull, rfl⟩ | ⟨k, hfree, rfl⟩
    · exact ⟨_, exec_call_of_full nnn hfull, rfl⟩
    · exact ⟨_, exec_call_of_free nnn hfree, rfl⟩
  | ldVxK x =>
    rcases exec_ldVxK_cases h with ⟨k, hkey, rfl⟩ | ⟨hkey, rfl⟩
    · exact ⟨_, exec_ldVxK_of_some x hkey, rfl⟩
    · exact ⟨_, exec_ldVxK_of_none x hkey, rfl⟩
  | seByte | sneByte | seReg | sneReg | skp | sknp =>
    cases h
    refine ⟨_, rfl, ?_⟩
    rw [State.skipIf_eq, State.skipIf_eq]
    rfl
  | stRegs x =>
    cases h
    have hloop : (s.setSt b).storeBlock (x.val + 1) = (s.storeBlock (x.val + 1)).setSt b :=
      List.foldl_hom (State.setSt · b) fun _ _ => rfl
    refine ⟨_, exec_stRegs x (s.setSt b), ?_⟩
    rw [hloop]
    rfl
  | ldRegs x =>
    cases h
    have hloop : (s.setSt b).loadBlock (x.val + 1) = (s.loadBlock (x.val + 1)).setSt b :=
      List.foldl_hom (State.setSt · b) fun _ _ => rfl
    refine ⟨_, exec_ldRegs x (s.setSt b), ?_⟩
    rw [hloop]
    rfl
  | _ => cases h; exact ⟨_, rfl, rfl⟩

/-- Settles O58: fetch does not read ST, and no handler does more with it than write it. -/
theorem soundTimerIsNeverRead : Obligations.SoundTimerIsNeverRead := by
  intro s t b hstep
  have hfault := fault_eq_none_of_step_next hstep
  have hfetch : fetch (s.setSt b) = (fetch s).setSt b := rfl
  rcases step_cases hstep with ⟨i, hdecode, hexec⟩ | ⟨hword, rfl⟩
  · obtain ⟨u, hnext, hu⟩ := exec_setSt b hexec
    refine ⟨u, ?_, hu⟩
    rw [← hfetch] at hnext
    exact (step_of_decodes (s := s.setSt b) hfault hdecode).trans hnext
  · exact ⟨_, step_of_unrecognised (s := s.setSt b) hfault hword, rfl⟩

/-! ### The upper four bits of `PC` and of the stack entries (R24) -/

/-- The state with another `PC` and another stack. -/
def State.withControl (s : State) (p : Word) (σ : Vector Word Config.stackDepth) : State :=
  { s with pc := p, stack := σ }

/-- States equal up to those bits differ by a `PC` and a stack alone. -/
theorem SameUpToPcHighBits.eq_withControl {s t : State} (h : SameUpToPcHighBits s t) :
    t = s.withControl t.pc t.stack := by
  obtain ⟨-, -, hrest⟩ := h
  have hcontrol := congrArg (fun u : State => u.withControl t.pc t.stack) hrest
  exact hcontrol

theorem toNat_add_mod_eq {a b : Word} (h : a.toNat % 4096 = b.toNat % 4096) (c : Word) :
    (a + c).toNat % 4096 = (b + c).toNat % 4096 := by
  rw [BitVec.toNat_add, BitVec.toNat_add]
  omega

/-- The word at `PC` is read at masked addresses (R61). -/
theorem SameUpToPcHighBits.wordAtPc_eq {s t : State} (h : SameUpToPcHighBits s t) :
    t.wordAtPc = s.wordAtPc := by
  have hmem : t.mem = s.mem := by rw [h.eq_withControl]; rfl
  obtain ⟨hpc, -, -⟩ := h
  rw [State.wordAtPc_eq_mod, State.wordAtPc_eq_mod, hmem, hpc, toNat_add_mod_eq hpc 1]

theorem SameUpToPcHighBits.fault_eq {s t : State} (h : SameUpToPcHighBits s t) :
    t.fault = s.fault := by
  rw [h.eq_withControl]
  rfl

theorem SameUpToPcHighBits.fetch {s t : State} (h : SameUpToPcHighBits s t) :
    SameUpToPcHighBits (fetch s) (fetch t) := by
  have hword := h.wordAtPc_eq
  rw [h.eq_withControl] at hword ⊢
  obtain ⟨hpc, hstack, -⟩ := h
  refine ⟨toNat_add_mod_eq hpc 2, hstack, ?_⟩
  rw [Machine.fetch, Machine.fetch, hword]
  rfl

theorem SameUpToPcHighBits.skipIf {s t : State} (h : SameUpToPcHighBits s t) (c : Bool) :
    SameUpToPcHighBits (s.skipIf c) (t.skipIf c) := by
  cases c with
  | false => exact h
  | true =>
    rw [h.eq_withControl]
    obtain ⟨hpc, hstack, -⟩ := h
    exact ⟨toNat_add_mod_eq hpc 2, hstack, rfl⟩

theorem SameUpToPcHighBits.push {s t : State} (h : SameUpToPcHighBits s t) (k : Fin 16) :
    SameUpToPcHighBits (s.push k s.pc) (t.push k t.pc) := by
  rw [h.eq_withControl]
  obtain ⟨hpc, hstack, -⟩ := h
  refine ⟨hpc, fun q => ?_, rfl⟩
  rw [State.stackAt_push, State.stackAt_push]
  split_ifs
  · exact hpc
  · exact hstack q

/-- Overwriting both `PC`s with equal values keeps states equal up to those bits. -/
theorem SameUpToPcHighBits.setPc {s t : State} (h : SameUpToPcHighBits s t) {a b : Word}
    (hab : b.toNat % 4096 = a.toNat % 4096) : SameUpToPcHighBits (s.setPc a) (t.setPc b) := by
  rw [h.eq_withControl]
  obtain ⟨-, hstack, -⟩ := h
  exact ⟨hab, hstack, rfl⟩

theorem SameUpToPcHighBits.foldl {body : State → Nat → State}
    (hbody : ∀ s t k, SameUpToPcHighBits s t → SameUpToPcHighBits (body s k) (body t k))
    {s t : State} (h : SameUpToPcHighBits s t) (ks : List Nat) :
    SameUpToPcHighBits (ks.foldl body s) (ks.foldl body t) := by
  induction ks generalizing s t with
  | nil => exact h
  | cons k ks ih => exact ih (hbody s t k h)

theorem SameUpToPcHighBits.storeOne {s t : State} (h : SameUpToPcHighBits s t) (k : Nat) :
    SameUpToPcHighBits (storeOne s k) (storeOne t k) := by
  rw [h.eq_withControl]
  obtain ⟨hpc, hstack, -⟩ := h
  exact ⟨hpc, hstack, rfl⟩

theorem SameUpToPcHighBits.loadOne {s t : State} (h : SameUpToPcHighBits s t) (k : Nat) :
    SameUpToPcHighBits (loadOne s k) (loadOne t k) := by
  rw [h.eq_withControl]
  obtain ⟨hpc, hstack, -⟩ := h
  exact ⟨hpc, hstack, rfl⟩

/-- A handler takes states equal up to those bits to such states: of `PC` and the stack it does no
more than copy one to the other, move `PC` by 2 or overwrite it. -/
theorem SameUpToPcHighBits.exec {i : Instr} {s t s' : State} (h : SameUpToPcHighBits s t)
    (hexec : Machine.exec i s = .next s') :
    ∃ t', Machine.exec i t = .next t' ∧ SameUpToPcHighBits s' t' := by
  cases i with
  | stRegs => cases hexec; exact ⟨_, rfl, h.foldl (fun _ _ k hk => hk.storeOne k) _⟩
  | ldRegs => cases hexec; exact ⟨_, rfl, h.foldl (fun _ _ k hk => hk.loadOne k) _⟩
  | seByte | sneByte | seReg | sneReg | skp | sknp =>
    have hskip := h.skipIf
    rw [h.eq_withControl] at hskip ⊢
    cases hexec
    exact ⟨_, rfl, hskip _⟩
  | call nnn =>
    have hpush := h.push
    rw [h.eq_withControl] at hpush ⊢
    obtain ⟨hpc, hstack, -⟩ := h
    rcases exec_call_cases hexec with ⟨hfull, rfl⟩ | ⟨k, hfree, rfl⟩
    · exact ⟨_, exec_call_of_full nnn hfull, hpc, hstack, rfl⟩
    · exact ⟨_, exec_call_of_free nnn hfree, (hpush k).setPc rfl⟩
  | ret =>
    rw [h.eq_withControl]
    obtain ⟨hpc, hstack, -⟩ := h
    rcases exec_ret_cases hexec with ⟨hempty, rfl⟩ | ⟨k, hentry, rfl⟩
    · exact ⟨_, exec_ret_of_empty hempty, hpc, hstack, rfl⟩
    · exact ⟨_, exec_ret_of_entry hentry, hstack k, hstack, rfl⟩
  | ldVxK x =>
    rw [h.eq_withControl]
    obtain ⟨hpc, hstack, -⟩ := h
    rcases exec_ldVxK_cases hexec with ⟨k, hkey, rfl⟩ | ⟨hkey, rfl⟩
    · exact ⟨_, exec_ldVxK_of_some x hkey, hpc, hstack, rfl⟩
    · have hback := toNat_add_mod_eq hpc (-2)
      rw [← BitVec.sub_eq_add_neg, ← BitVec.sub_eq_add_neg] at hback
      exact ⟨_, exec_ldVxK_of_none x hkey, hback, hstack, rfl⟩
  | jp | jpV0 =>
    rw [h.eq_withControl]
    obtain ⟨-, hstack, -⟩ := h
    cases hexec
    exact ⟨_, rfl, rfl, hstack, rfl⟩
  | _ =>
    rw [h.eq_withControl]
    obtain ⟨hpc, hstack, -⟩ := h
    cases hexec
    exact ⟨_, rfl, hpc, hstack, rfl⟩

/-- Settles O59: both states fetch the same word, and every handler keeps them equal up to those
bits. -/
theorem pcHighBitsAreInvisible : Obligations.PcHighBitsAreInvisible := by
  intro s t s' h hstep
  have hfault := h.fault_eq.trans (fault_eq_none_of_step_next hstep)
  have hword := h.wordAtPc_eq
  rcases step_cases hstep with ⟨i, hdecode, hexec⟩ | ⟨hunrecognised, rfl⟩
  · obtain ⟨t', hnext, hsame⟩ := h.fetch.exec hexec
    exact ⟨t', (step_of_decodes hfault (hword ▸ hdecode)).trans hnext, hsame⟩
  · exact ⟨_, step_of_unrecognised hfault (hword ▸ hunrecognised), h.fetch⟩

end Sys2Proof.Machine

namespace Sys2Proof.Machine

/-! ## The sprite (spec/41_display.md)

A draw visits every pixel at most once, so what it has done so far is told by the set of pixels it
has inverted; that set grows pixel by pixel to the sprite's. -/

/-- The draw has inverted the pixels of `C` on the screen `f`, and `hit` tells whether one of them
was on. -/
def Inverted (f : Framebuffer) (C : Fin Config.fbW → Fin Config.fbH → Bool) (d : DrawState) : Prop :=
  (∀ c r, Framebuffer.get d.screen c r = (Framebuffer.get f c r ^^ C c r)) ∧
    (d.hit = true ↔ ∃ c r, Framebuffer.get f c r = true ∧ C c r = true)

/-- A sprite bit over a pixel not inverted yet adds that pixel, and a 0 bit adds none. -/
theorem Inverted.drawPixel {f : Framebuffer} {C C' : Fin Config.fbW → Fin Config.fbH → Bool}
    {d : DrawState} (h : Inverted f C d) {x0 col : Nat} {py : Fin Config.fbH} {b : Byte}
    (hfresh : C (wrapX (x0 + col)) py = false)
    (hC' : ∀ c r, C' c r = (C c r || (decide (c = wrapX (x0 + col) ∧ r = py) && spriteBit b col))) :
    Inverted f C' (drawPixel x0 py b d col) := by
  obtain ⟨hscreen, hhit⟩ := h
  unfold Machine.drawPixel
  cases hbit : spriteBit b col with
  | false =>
    have hsame : C' = C := by funext c r; simp [hC', hbit]
    rw [hsame]
    exact ⟨hscreen, hhit⟩
  | true =>
    simp only [if_true]
    refine ⟨fun c r => ?_, ?_⟩
    · rw [Framebuffer.get_put, hC', hbit, Bool.and_true]
      by_cases hcr : c = wrapX (x0 + col) ∧ r = py
      · obtain ⟨rfl, rfl⟩ := hcr
        simp [hscreen, hfresh]
      · simp [hcr, hscreen]
    · simp only [Bool.or_eq_true, hhit, hC', hbit, Bool.and_true, decide_eq_true_eq, hscreen, hfresh,
        Bool.xor_false]
      constructor
      · rintro (⟨c, r, hf, hc⟩ | hf)
        · exact ⟨c, r, hf, .inl hc⟩
        · exact ⟨_, _, hf, .inr ⟨rfl, rfl⟩⟩
      · rintro ⟨c, r, hf, hc | ⟨rfl, rfl⟩⟩
        · exact .inl ⟨c, r, hf, hc⟩
        · exact .inr hf

/-- How far right of the column `x0`, wrapped, the column `c` lies. -/
def colOffset (x0 : Nat) (c : Fin Config.fbW) : Nat := (c.val + 64 - x0 % 64) % 64

/-- How far below the row `y0`, wrapped, the row `r` lies. -/
def rowOffset (y0 : Nat) (r : Fin Config.fbH) : Nat := (r.val + 32 - y0 % 32) % 32

theorem eq_wrapX_iff {x0 col : Nat} (hcol : col < 64) (c : Fin Config.fbW) :
    c = wrapX (x0 + col) ↔ colOffset x0 c = col := by
  have hc : c.val < 64 := c.isLt
  have hwrap : (wrapX (x0 + col)).val = (x0 + col) % 64 := rfl
  rw [Fin.ext_iff, hwrap, colOffset]
  omega

theorem eq_wrapY_iff {y0 row : Nat} (hrow : row < 32) (r : Fin Config.fbH) :
    r = wrapY (y0 + row) ↔ rowOffset y0 r = row := by
  have hr : r.val < 32 := r.isLt
  have hwrap : (wrapY (y0 + row)).val = (y0 + row) % 32 := rfl
  rw [Fin.ext_iff, hwrap, rowOffset]
  omega

/-- The pixels of row `py` under the first `k` bits of `b`. -/
def rowCover (x0 : Nat) (py : Fin Config.fbH) (b : Byte) (k : Nat) (c : Fin Config.fbW)
    (r : Fin Config.fbH) : Bool :=
  decide (r = py) && decide (colOffset x0 c < k) && spriteBit b (colOffset x0 c)

theorem rowCover_succ (x0 : Nat) (py : Fin Config.fbH) (b : Byte) {k : Nat} (hk : k < 64)
    (c : Fin Config.fbW) (r : Fin Config.fbH) :
    rowCover x0 py b (k + 1) c r =
      (rowCover x0 py b k c r || (decide (c = wrapX (x0 + k) ∧ r = py) && spriteBit b k)) := by
  simp only [rowCover, eq_wrapX_iff hk]
  rcases Nat.lt_trichotomy (colOffset x0 c) k with hlt | heq | hgt
  · simp [hlt, Nat.lt_succ_of_lt hlt, Nat.ne_of_lt hlt]
  · simp [heq]
  · simp [Nat.not_lt_of_gt hgt, Nat.ne_of_gt hgt, Nat.not_lt_of_ge hgt]

/-- The first `k` columns of a row add their pixels, where nothing of the row was inverted. -/
theorem Inverted.columns {f : Framebuffer} {C : Fin Config.fbW → Fin Config.fbH → Bool}
    {d : DrawState} (h : Inverted f C d) {x0 : Nat} {py : Fin Config.fbH} (b : Byte)
    (hfresh : ∀ c, C c py = false) {k : Nat} (hk : k ≤ 8) :
    Inverted f (fun c r => C c r || rowCover x0 py b k c r)
      ((List.range k).foldl (Machine.drawPixel x0 py b) d) := by
  induction k with
  | zero => simpa [rowCover] using h
  | succ k ih =>
    rw [List.range_succ, List.foldl_append]
    have hself : colOffset x0 (wrapX (x0 + k)) = k := (eq_wrapX_iff (by omega) _).mp rfl
    refine (ih (by omega)).drawPixel (by simp [hfresh, rowCover, hself]) fun c r => ?_
    rw [rowCover_succ x0 py b (by omega), Bool.or_assoc]

/-- The pixels under the first `n` rows of the sprite. -/
def spriteCover (x0 y0 : Nat) (rows : Nat → Byte) (n : Nat) (c : Fin Config.fbW)
    (r : Fin Config.fbH) : Bool :=
  decide (colOffset x0 c < 8) && decide (rowOffset y0 r < n) &&
    spriteBit (rows (rowOffset y0 r)) (colOffset x0 c)

theorem spriteCover_succ (x0 y0 : Nat) (rows : Nat → Byte) {n : Nat} (hn : n < 32)
    (c : Fin Config.fbW) (r : Fin Config.fbH) :
    spriteCover x0 y0 rows (n + 1) c r =
      (spriteCover x0 y0 rows n c r || rowCover x0 (wrapY (y0 + n)) (rows n) 8 c r) := by
  simp only [spriteCover, rowCover, eq_wrapY_iff hn]
  rcases Nat.lt_trichotomy (rowOffset y0 r) n with hlt | heq | hgt
  · simp [hlt, Nat.lt_succ_of_lt hlt, Nat.ne_of_lt hlt]
  · simp [heq]
  · simp [Nat.not_lt_of_gt hgt, Nat.ne_of_gt hgt, Nat.not_lt_of_ge hgt]

/-- The draw of one more row. -/
theorem drawSprite_succ (x0 y0 n : Nat) (rows : Nat → Byte) (f : Framebuffer) :
    drawSprite x0 y0 (n + 1) rows f =
      drawRow x0 (wrapY (y0 + n)) (rows n) (drawSprite x0 y0 n rows f) := by
  rw [drawSprite, List.range_succ, List.foldl_append]
  rfl

/-- The sprite inverts the pixels it covers. -/
theorem inverted_drawSprite (x0 y0 : Nat) (rows : Nat → Byte) (f : Framebuffer) {n : Nat}
    (hn : n ≤ 32) : Inverted f (spriteCover x0 y0 rows n) (drawSprite x0 y0 n rows f) := by
  induction n with
  | zero => simp [Inverted, spriteCover, drawSprite]
  | succ n ih =>
    have hself : rowOffset y0 (wrapY (y0 + n)) = n := (eq_wrapY_iff (by omega) _).mp rfl
    have hfresh : ∀ c, spriteCover x0 y0 rows n c (wrapY (y0 + n)) = false := fun c => by
      simp [spriteCover, hself]
    have hrow := (ih (by omega)).columns (x0 := x0) (rows n) hfresh (Nat.le_refl 8)
    simp only [← spriteCover_succ x0 y0 rows (show n < 32 by omega)] at hrow
    rw [drawSprite_succ, drawRow]
    exact hrow

/-- What `Dxyn` answers (R121). -/
theorem exec_drw (x y : Reg) (n : Fin 16) (s : State) : exec (.drw x y n) s =
    let d := drawSprite (s.readV x).toNat (s.readV y).toNat n.val
      (fun row => s.memRead (indexed s.i row)) s.fb
    .next ((s.setFb d.screen).writeV vF (flagByte d.hit)) := rfl

/-- What `Dxyn` inverts are the pixels the sprite covers. -/
theorem inverted_drw (x y : Reg) (n : Fin 16) (s : State) :
    Inverted s.fb (spriteCovers s x y n.val)
      (drawSprite (s.readV x).toNat (s.readV y).toNat n.val
        (fun row => s.memRead (indexed s.i row)) s.fb) :=
  inverted_drawSprite _ _ _ _ (Nat.le_trans n.isLt.le (by decide))

/-- Settles O22: the draw inverts what the sprite covers, the flag tells whether a pixel of that was
on, and the flag's write is the last. -/
theorem drawXorsTheSpriteOntoTheScreen : Obligations.DrawXorsTheSpriteOntoTheScreen := by
  intro x y n s
  obtain ⟨hscreen, hhit⟩ := inverted_drw x y n s
  have hflag := State.readV_writeV_self (s.setFb (drawSprite (s.readV x).toNat (s.readV y).toNat n.val
    (fun row => s.memRead (indexed s.i row)) s.fb).screen) vF
  refine ⟨_, exec_drw x y n s, hscreen, fun hcollides => ?_, fun hclear => ?_,
    State.sameRegsExcept_writeV _ vF _, exec_sameOutside (exec_drw x y n s)⟩
  · rw [hflag, hhit.mpr hcollides]
    rfl
  · rw [hflag, Bool.eq_false_iff.mpr (mt hhit.mp fun ⟨c, r, hf, hc⟩ => ?_)]
    · rfl
    · simp [hclear c r hf] at hc

/-- Which pixels a sprite covers depends on the position, on `I` and on memory alone. -/
theorem spriteCovers_congr {s t : State} {x y : Reg} {n : Nat}
    (hx : (t.readV x).toNat % 64 = (s.readV x).toNat % 64)
    (hy : (t.readV y).toNat % 32 = (s.readV y).toNat % 32) (hindex : t.i = s.i)
    (hmem : ∀ a, t.memRead a = s.memRead a) : spriteCovers t x y n = spriteCovers s x y n := by
  funext c r
  simp only [spriteCovers, hx, hy, hindex, hmem]

/-- Settles O23: the second draw inverts the same pixels again, and one of them is on exactly where
the first draw turned it on. -/
theorem drawingTwiceRestoresTheScreen : Obligations.DrawingTwiceRestoresTheScreen := by
  intro x y n s t hfirst hx hy
  obtain ⟨t', hfirst', hscreen, -⟩ := drawXorsTheSpriteOntoTheScreen x y n s
  cases hfirst.symm.trans hfirst'
  have hframe := exec_sameOutside hfirst
  have hcovers : spriteCovers t x y n.val = spriteCovers s x y n.val :=
    spriteCovers_congr hx hy (hframe .index (by simp [writtenParts]))
      (hframe .memory (by simp [writtenParts]))
  obtain ⟨u, hsecond, hscreen', hcollides, hclear, -⟩ := drawXorsTheSpriteOntoTheScreen x y n t
  rw [hcovers] at hscreen' hcollides hclear
  have hturnedOn : ∀ c r, (t.fb.get c r = true ∧ spriteCovers s x y n.val c r = true) ↔
      (s.fb.get c r = false ∧ t.fb.get c r = true) := fun c r => by
    rw [hscreen c r]
    cases s.fb.get c r <;> cases spriteCovers s x y n.val c r <;> decide
  refine ⟨u, hsecond, fun c r => ?_, ?_⟩
  · rw [hscreen' c r, hscreen c r, Bool.xor_assoc, Bool.xor_self, Bool.xor_false]
  · simp only [← hturnedOn]
    refine ⟨fun hone => ?_, hcollides⟩
    by_contra hnone
    have hzero := hclear fun c r hon => Bool.eq_false_iff.mpr fun hc => hnone ⟨c, r, hon, hc⟩
    simp [hzero] at hone

end Sys2Proof.Machine
